-- ==== Sys2Proof/Word.lean ====
section
/-! DEFINITION. The widths of the engine's values (00_scope.md section 5; 30_encoding.md rules R30, R31). -/

namespace Sys2Proof

/-- An unsigned value of 8 bits: an opcode, a status, one byte of a stored image. -/
abbrev U8 := BitVec 8

/-- An unsigned value of 64 bits: an output word, a limb, the multiplier. -/
abbrev U64 := BitVec 64

/-- An unsigned value of 128 bits: the two generator registers and the two operands. -/
abbrev U128 := BitVec 128

/-- An unsigned value of 256 bits: the data field of a response. -/
abbrev U256 := BitVec 256

/-- The one command format `CW` (R30): `OPC[263:256]`, `A[255:128]`, `B[127:0]`. -/
abbrev CommandWord := BitVec 264

/-- The one response format `RW` (R31): `ST[263:256]`, `DATA[255:0]`. -/
abbrev ResponseWord := BitVec 264

end Sys2Proof
end

