-- ==== Sys2Proof/Syntax.lean ====
section
/-! DEFINITION. The seven commands (30_encoding.md rule R32), one constructor per row of spec/opcode_table.json. -/

namespace Sys2Proof

/-- A decoded command with the operands it uses. A field the command does not use is no argument of it (R33). -/
inductive Instr where
  /-- ADV (R42): one StateAdvance, no word. -/
  | adv
  /-- PERM (R48): OutputPermute of an operand. -/
  | perm (value : U128)
  /-- NEXT (R49): one output word, one advance. -/
  | next
  /-- SEED (R52): seed the default stream. -/
  | seed (seed : U128)
  /-- SEEDS (R53): seed a selected stream. -/
  | seeds (seed selector : U128)
  /-- LOAD (R55): replace the pair. -/
  | load (state inc : U128)
  /-- SAVE (R56): read the pair. -/
  | save
deriving DecidableEq, Repr

end Sys2Proof
end

