-- ==== Sys2Proof/WellFormed.lean ====
section
/-! DEFINITION. Which commands can be written: the checks of the assembler syntax (30_encoding.md rule R36).
An operand is a 128-bit unsigned literal; a literal of 2^128 or more and a negative literal are errors. -/

namespace Sys2Proof

/-- The seven mnemonics of the opcode map (R32). -/
inductive Mnemonic where
  | adv | perm | next | seed | seeds | load | save
deriving DecidableEq, Repr

/-- How many operands the syntax gives a mnemonic (R36). -/
def Mnemonic.arity : Mnemonic → Nat
  | .adv => 0
  | .perm => 1
  | .next => 0
  | .seed => 1
  | .seeds => 2
  | .load => 2
  | .save => 0

/-- A command as a host writes it: literals are integers before they are checked. -/
structure SourceCommand where
  mnemonic : Mnemonic
  operands : List Int
deriving DecidableEq, Repr

/-- A literal the syntax admits: neither negative nor 2^128 or more (R36). -/
def literalInRange (v : Int) : Bool := decide (0 ≤ v) && decide (v < 2 ^ 128)

/-- The syntax's two checks: the number of operands and the range of each (R36). -/
def SourceCommand.wellFormed (c : SourceCommand) : Bool :=
  decide (c.operands.length = c.mnemonic.arity) && c.operands.all literalInRange

/-- The listing of a decoded command (R36; R37 gives the correspondence of names). -/
def Instr.source : Instr → SourceCommand
  | .adv => ⟨.adv, []⟩
  | .perm v => ⟨.perm, [(v.toNat : Int)]⟩
  | .next => ⟨.next, []⟩
  | .seed v => ⟨.seed, [(v.toNat : Int)]⟩
  | .seeds v w => ⟨.seeds, [(v.toNat : Int), (w.toNat : Int)]⟩
  | .load v w => ⟨.load, [(v.toNat : Int), (w.toNat : Int)]⟩
  | .save => ⟨.save, []⟩

/-- A decoded command is well formed when its listing is. Its operands are whole 128-bit fields, so every
command is (R60: no operand value is rejected); Laws/WellFormed.lean proves it. -/
def Instr.wellFormed (i : Instr) : Bool := i.source.wellFormed

end Sys2Proof
end

