-- ==== Sys2Proof/Decode.lean ====
section
/-! DEFINITION. Decoding a command word and encoding a command (30_encoding.md rules R30, R32 to R35). -/

namespace Sys2Proof

/-- `OPC = CW[263:256]` (R30). -/
def CommandWord.opc (cw : CommandWord) : U8 := cw.extractLsb' 256 8

/-- `A = CW[255:128]` (R30). -/
def CommandWord.a (cw : CommandWord) : U128 := cw.extractLsb' 128 128

/-- `B = CW[127:0]` (R30). -/
def CommandWord.b (cw : CommandWord) : U128 := cw.extractLsb' 0 128

/-- The word `{OPC, A, B}` (R30). -/
def commandWord (opc : U8) (a b : U128) : CommandWord := opc ++ a ++ b

/-- What decode answers: a command, or Illegal (R35). -/
inductive Decoded where
  | command (i : Instr)
  /-- The opcode is reserved (R34). -/
  | illegal
deriving DecidableEq, Repr

/-- Decode (R35): total, reads `OPC` for the command and only the operand fields that command uses, and depends
on no state. -/
def decode (cw : CommandWord) : Decoded :=
  match cw.opc.toNat with
  | 0x01 => .command .adv
  | 0x02 => .command (.perm cw.a)
  | 0x03 => .command .next
  | 0x04 => .command (.seed cw.a)
  | 0x05 => .command (.seeds cw.a cw.b)
  | 0x06 => .command (.load cw.a cw.b)
  | 0x07 => .command .save
  | _ => .illegal

/-- The opcode of a command (R32). -/
def Instr.opcode : Instr → U8
  | .adv => 0x01#8
  | .perm _ => 0x02#8
  | .next => 0x03#8
  | .seed _ => 0x04#8
  | .seeds _ _ => 0x05#8
  | .load _ _ => 0x06#8
  | .save => 0x07#8

/-- What a command puts in field `A`; zero where it uses none (R32, R33). -/
def Instr.operandA : Instr → U128
  | .adv => 0#128
  | .perm v => v
  | .next => 0#128
  | .seed s => s
  | .seeds s _ => s
  | .load s _ => s
  | .save => 0#128

/-- What a command puts in field `B`; zero where it uses none (R32, R33). -/
def Instr.operandB : Instr → U128
  | .adv => 0#128
  | .perm _ => 0#128
  | .next => 0#128
  | .seed _ => 0#128
  | .seeds _ t => t
  | .load _ i => i
  | .save => 0#128

/-- The canonical word of a command: its ignored fields are zero (R33). -/
def encode (i : Instr) : CommandWord := commandWord i.opcode i.operandA i.operandB

/-- Does a command with this opcode use field `A` (R32, R33)? -/
def usesA (opc : U8) : Bool :=
  match opc.toNat with
  | 0x02 => true
  | 0x04 => true
  | 0x05 => true
  | 0x06 => true
  | _ => false

/-- Does a command with this opcode use field `B` (R32, R33)? -/
def usesB (opc : U8) : Bool :=
  match opc.toNat with
  | 0x05 => true
  | 0x06 => true
  | _ => false

/-- A canonical word has every field its command ignores zero (R33). -/
def CommandWord.canonical (cw : CommandWord) : Bool :=
  (usesA cw.opc || decide (cw.a = 0#128)) && (usesB cw.opc || decide (cw.b = 0#128))

/-- The 264-bit command word whose low `nbits` bits are those of `w` and whose other bits are zero. Bit 0 is the
least significant bit of `CW`, as in spec/opcode_table.json (log entry 12). -/
def tableWord (nbits w : Nat) : CommandWord := BitVec.ofNat 264 (w % 2 ^ nbits)

/-- The command the decoder reads from a word of the opcode table; none where it answers Illegal. -/
def decodeTableWord (nbits w : Nat) : Option Instr :=
  match decode (tableWord nbits w) with
  | .command i => some i
  | .illegal => none

end Sys2Proof
end

