-- ==== Sys2Proof/Config.lean ====
section
/-! DEFINITION. The values the spec leaves open: the contents of the two generator registers after a reset
(10_state.md rule R19, `RESET_STATE` and `RESET_INC`). No proof can see what they are. -/

namespace Sys2Proof

/-- `RESET_STATE` of the n-th reset of one engine: the first argument says which engine's draws, the second is n.
DESIGN CHOICE, log entry 1: a free value, safe. Rule R19: two resets need not give the same value. Rule R67: each engine
has its own reset contents. -/
opaque Config.resetState : Nat → Nat → U128

/-- `RESET_INC` of the n-th reset of one engine, which need not be odd (R19); the arguments as for `RESET_STATE`. DESIGN
CHOICE, log entry 1: a free value, safe. -/
opaque Config.resetInc : Nat → Nat → U128

end Sys2Proof
end

