-- ==== Sys2Proof/Machine/State.lean ====
section
/-! DEFINITION. The engine's registers, the host's side of the two channels, the reasons a step can stop, and the
state after reset (10_state.md; 70_reset_and_hazards.md rules R70 to R74). -/

namespace Sys2Proof.Machine

/-- The whole architectural state of one engine, 257 bits (10_state.md rules R10, R14, R15). -/
structure Engine where
  /-- The LCG state (R10). -/
  state : U128
  /-- The per-stream additive increment (R10). -/
  inc : U128
  /-- `{state, inc}` was written by SEED, SEEDS or LOAD since the last reset (R14). One bit. -/
  valid : Bool
deriving DecidableEq, Repr

/-- What the host does to the engine (70_reset_and_hazards.md rule R73). -/
inductive HostEvent where
  /-- It presents one whole command word (20_memory.md rule R23). -/
  | command (cw : CommandWord)
  /-- It asserts reset between two commands (R70). -/
  | reset
  /-- It presents a command word and asserts reset before the response: the command is abandoned (R74). -/
  | resetDuring (cw : CommandWord)
deriving DecidableEq, Repr

/-- The engine and the two channels. Only `engine` is the spec's state (R15); the other fields are the model's own,
log entries 2 to 4 and 17. -/
structure State where
  /-- The registers. -/
  engine : Engine
  /-- What the host does next, the next event first (92_eei_decisions.md D9; rule R72). -/
  pending : List HostEvent
  /-- The responses given so far, oldest first (rule R72's `[r_1 .. r_n]`). -/
  responses : List ResponseWord
  /-- How many resets have drawn their contents; the number of the next draw (R19). -/
  draws : Nat
  /-- Whose free values the resets draw: the engines of a system have different ones (R67). No step changes it. -/
  drawSource : Nat
deriving DecidableEq, Repr

/-- Why a step can stop with a fault: never. "The engine never halts, never gets stuck" (R72), and the two error
outcomes of rule R61 are responses after which the engine goes on. So the type has no constructor, and nothing
raises one; log entry 6, safe. -/
inductive Fault where
deriving DecidableEq, Repr

/-- Why the model can decline an instruction. -/
inductive Refusal where
  /-- An arm of exec whose instruction has no meaning yet. Raised by no arm: all seven commands have their meaning.
  Safe. -/
  | notModelled (mnemonic : String)
deriving DecidableEq, Repr

/-- The registers after the n-th reset of the engine that draws from `source`: `valid = 0`, the pair unspecified (R19,
R67). -/
def Engine.afterReset (source n : Nat) : Engine :=
  { state := Config.resetState source n, inc := Config.resetInc source n, valid := false }

/-- An engine right after power-up, which counts as a reset (R70) and takes draw 0: no command issued, no response
given. -/
def State.powerUp (source : Nat) : State :=
  { engine := Engine.afterReset source 0, pending := [], responses := [], draws := 1, drawSource := source }

/-- The machine right after reset: one engine, whose draws are those of source 0. -/
def State.reset : State := State.powerUp 0

end Sys2Proof.Machine
end

