-- ==== Sys2Proof/Machine/Flags.lean ====
section
/-! DEFINITION. The one flag, `valid` (10_state.md rule R14), and the two ways the generator registers are written.
There is no carry, overflow or zero flag: no rule records one (R14). -/

namespace Sys2Proof.Machine

/-- Has `{state, inc}` been created since the last reset (R14)? -/
def Engine.isCreated (e : Engine) : Bool := e.valid

/-- Write `state` alone, as ADV and NEXT do: `inc` and `valid` keep their values (R42, R49). -/
def Engine.writeState (e : Engine) (v : U128) : Engine := { e with state := v }

/-- Create a GeneratorState, as SEED, SEEDS and LOAD do: both registers are replaced whole and `valid` becomes 1
(R14, R18). Nothing of the old one is kept. -/
def Engine.create (_ : Engine) (state inc : U128) : Engine :=
  { state := state, inc := inc, valid := true }

end Sys2Proof.Machine
end

