-- ==== Sys2Proof/Machine/Primitives.lean ====
section
/-! DEFINITION. The pseudocode primitives (00_scope.md rule R4), the two constants (10_state.md rule R13), and the
two-limb forms (rule R6). -/

namespace Sys2Proof.Machine

/-- The fixed multiplier `M` (R3, R13). -/
def multiplier : U64 := 0xda942042e4dd58b5#64

/-- `DEFAULT_INC = (6364136223846793005 << 64) | 1442695040888963407` (R3, R13). -/
def defaultInc : U128 := 0x5851f42d4c957f2d14057b7ef767814f#128

/-- `zext_128` (R4). -/
def zext128 (v : U64) : U128 := v.setWidth 128

/-- `zext_256` (41_output_permute.md rule R48). -/
def zext256 (v : U64) : U256 := v.setWidth 256

/-- `v[127:64]` (R4). -/
def hi64 (v : U128) : U64 := v.extractLsb' 64 64

/-- `v[63:0]` (R4). -/
def lo64 (v : U128) : U64 := v.extractLsb' 0 64

/-- `(a + b) mod 2^128` (R4). -/
def add128 (a b : U128) : U128 := a + b

/-- `(a * b) mod 2^128` (R4). The factors stand in the other order, which is the same product: a constant multiplier then
stands on the left, where Lean's kernel does not unroll it. -/
def mul128 (a b : U128) : U128 := b * a

/-- `(a * b) mod 2^64` (R4); the factors as in `mul128`. -/
def mul64 (a b : U64) : U64 := b * a

/-- Logical right shift; the spec uses it for `k < 64` only (R4, R5). -/
def shr64 (a : U64) (k : Nat) : U64 := a >>> k

/-- `(2 * a) mod 2^128`: bit 127 is lost, bit 0 becomes 0 (R4). -/
def shl128By1 (a : U128) : U128 := a <<< 1

/-- Bitwise exclusive or (R4). -/
def xor64 (a b : U64) : U64 := a ^^^ b

/-- Bitwise or (R4). -/
def or64 (a b : U64) : U64 := a ||| b

/-- Bitwise or (R4). -/
def or128 (a b : U128) : U128 := a ||| b

/-- `{hi, lo}`: the 128-bit value of two 64-bit halves (00_scope.md section 5; 20_memory.md section 1). -/
def limbs (hi lo : U64) : U128 := hi ++ lo

/-- The carry out of the low limbs' sum (R6). -/
def carry64 (a b : U64) : U64 := if 2 ^ 64 ≤ a.toNat + b.toNat then 1#64 else 0#64

/-- The high half of the full 64 by 64 to 128 product (R6). -/
def mulHi64 (a b : U64) : U64 := BitVec.ofNat 64 (a.toNat * b.toNat / 2 ^ 64)

/-- The 128-bit sum in two limbs (R6). -/
def add128Limbs (a b : U128) : U128 :=
  limbs (hi64 a + hi64 b + carry64 (lo64 a) (lo64 b)) (lo64 a + lo64 b)

/-- The 128-bit product with a 64-bit multiplier in two limbs (R6). -/
def mul128Limbs (a : U128) (m : U64) : U128 :=
  limbs (mulHi64 (lo64 a) m + mul64 (hi64 a) m) (mul64 (lo64 a) m)

end Sys2Proof.Machine
end

