-- ==== Sys2Proof/Machine/Operands.lean ====
section
/-! DEFINITION. The forms of a response (30_encoding.md rule R31): what each command puts in `DATA`, and the word it
makes with its status. The operand forms of a command word are the fields `A` and `B` of Decode.lean. -/

namespace Sys2Proof.Machine

/-- `DATA` of a command without a result, and of every error (R31; 92_eei_decisions.md D20). -/
def noData : U256 := 0#256

/-- `DATA` of PERM and NEXT: the word in bits 63 to 0, the rest zero (R31). -/
def dataOfWord (w : U64) : U256 := zext256 w

/-- `DATA` of SAVE: `{state, inc}` (R31, R56). -/
def dataOfPair (state inc : U128) : U256 := state ++ inc

/-- The response `{ST, DATA}` (R31). -/
def responseWord (st : U8) (data : U256) : ResponseWord := st ++ data

end Sys2Proof.Machine

namespace Sys2Proof

/-- `ST = RW[263:256]` (R31). -/
def ResponseWord.st (rw : ResponseWord) : U8 := rw.extractLsb' 256 8

/-- `DATA = RW[255:0]` (R31). -/
def ResponseWord.data (rw : ResponseWord) : U256 := rw.extractLsb' 0 256

end Sys2Proof
end

