-- ==== Sys2Proof/Machine/Ops.lean ====
section
/-! DEFINITION. The named operations on the state: taking the host's next event, answering, raising an error, reset.
Every register update and every response of a command goes through these. -/

namespace Sys2Proof.Machine

/-- The two error outcomes of the command interface (60_exceptions.md rule R61). -/
inductive CommandError where
  /-- The opcode is reserved (R34). -/
  | illegal
  /-- ADV, NEXT or SAVE before a GeneratorState was created (R14). -/
  | unseeded
deriving DecidableEq, Repr

/-- `ST` of a command that completed (R31). -/
def statusOk : U8 := 0x00#8

/-- `ST` of an error (R31, R61). -/
def CommandError.status : CommandError → U8
  | .illegal => 0x01#8
  | .unseeded => 0x02#8

/-- The host's next event and the state once it is taken, if there is one (R72; 92_eei_decisions.md D9). -/
def State.takeEvent (s : State) : Option (HostEvent × State) :=
  match s.pending with
  | [] => none
  | e :: rest => some (e, { s with pending := rest })

/-- The state when the host has issued nothing: the engine "never acts except in response to a command or to reset"
(60_exceptions.md rule R63). -/
def State.idle (s : State) : State := s

/-- Replace the engine's registers. -/
def State.withEngine (s : State) (e : Engine) : State := { s with engine := e }

/-- `respond(ST, DATA)` (00_scope.md section 5): the command's one response. -/
def State.respond (s : State) (st : U8) (data : U256) : State :=
  { s with responses := s.responses ++ [responseWord st data] }

/-- `raise Illegal` and `raise Unseeded` (R61): the command ends, `state`, `inc` and `valid` keep their values, the
response carries the error's status and zero data, and the engine is ready for the next command. Nothing is saved, so
there is nothing to return from: the return is the host's next command (R64). -/
def State.raise (s : State) (e : CommandError) : State := s.respond e.status noData

/-- A command that uses the GeneratorState: it raises Unseeded when `valid = 0`, else it does `body` (R61, R42, R49, R56). -/
def State.whenCreated (s : State) (body : State) : State :=
  if s.engine.isCreated then body else s.raise .unseeded

/-- A command that completes: it leaves the registers `e` and answers with `data` (R21: its updates land together). -/
def State.complete (s : State) (e : Engine) (data : U256) : State :=
  (s.withEngine e).respond statusOk data

/-- Reset (R70): `valid = 0`, the pair unspecified and drawn anew (R19) from the engine's own source (R67). It answers nothing, and the responses already
delivered stay delivered. -/
def State.takeReset (s : State) : State :=
  { s with engine := Engine.afterReset s.drawSource s.draws, draws := s.draws + 1 }

/-- Reset while `cw` is being executed (R74): the command is abandoned and its response is not delivered; what it may
have written does not matter, because reset leaves the pair unspecified. -/
def State.takeResetDuring (s : State) (_cw : CommandWord) : State := s.takeReset

end Sys2Proof.Machine
end

