-- ==== Sys2Proof/Machine/StateAdvance.lean ====
section
/-! DEFINITION. StateAdvance and the ADV command (40_state_advance.md). -/

namespace Sys2Proof.Machine

/-- `StateAdvance(s, i) = (s * M + i) mod 2^128` (R40). Computed the same way for even `i`. -/
def stateAdvance (s i : U128) : U128 := add128 (mul128 s (zext128 multiplier)) i

/-- StateAdvance in two limbs (R40, R6). -/
def stateAdvanceLimbs (s i : U128) : U128 := add128Limbs (mul128Limbs s multiplier) i

/-- ADV (R42). -/
def execAdv (s : State) : Host.Outcome State Fault Refusal :=
  .next (s.whenCreated
    (s.complete (s.engine.writeState (stateAdvance s.engine.state s.engine.inc)) noData))

end Sys2Proof.Machine
end

