-- ==== Sys2Proof/Machine/OutputPermute.lean ====
section
/-! DEFINITION. OutputPermute, the generation protocol, PERM and NEXT (41_output_permute.md). -/

namespace Sys2Proof.Machine

/-- Steps 3 and 5 of OutputPermute: `hi xor (hi >> k)` (R45). -/
def xorShift (hi : U64) (k : Nat) : U64 := xor64 hi (shr64 hi k)

/-- OutputPermute (R45), its seven steps in order. -/
def outputPermute (v : U128) : U64 :=
  let hi := hi64 v
  let lo := or64 (lo64 v) 1#64
  let hi := xorShift hi 32
  let hi := mul64 hi multiplier
  let hi := xorShift hi 48
  mul64 hi lo

/-- NextWord (R47): the word of the state from before the advance, and the advanced state. -/
def nextWord (s i : U128) : U64 × U128 := (outputPermute s, stateAdvance s i)

/-- PERM (R48): no register is read or written, not even `valid`. -/
def execPerm (value : U128) (s : State) : Host.Outcome State Fault Refusal :=
  .next (s.complete s.engine (dataOfWord (outputPermute value)))

/-- NEXT (R49). -/
def execNext (s : State) : Host.Outcome State Fault Refusal :=
  let r := nextWord s.engine.state s.engine.inc
  .next (s.whenCreated (s.complete (s.engine.writeState r.2) (dataOfWord r.1)))

end Sys2Proof.Machine
end

