-- ==== Sys2Proof/Machine/StateAccess.lean ====
section
/-! DEFINITION. LOAD and SAVE, the raw state pair (43_state_access.md). -/

namespace Sys2Proof.Machine

/-- LOAD (R55): the pair is stored exactly; an even increment is accepted. -/
def execLoad (state inc : U128) (s : State) : Host.Outcome State Fault Refusal :=
  .next (s.complete (s.engine.create state inc) noData)

/-- SAVE (R56): changes nothing. -/
def execSave (s : State) : Host.Outcome State Fault Refusal :=
  .next (s.whenCreated (s.complete s.engine (dataOfPair s.engine.state s.engine.inc)))

end Sys2Proof.Machine
end

