-- ==== Sys2Proof/Machine/StreamSeed.lean ====
section
/-! DEFINITION. StreamSeed, SEED and SEEDS (42_stream_seed.md). -/

namespace Sys2Proof.Machine

/-- `IncOf(sel)` (R50): the test for zero is on the selector as given; bit 127 is lost in the shift (90_conflicts.md C4). -/
def incOf (selector : U128) : U128 :=
  if selector = 0#128 then defaultInc else or128 (shl128By1 selector) 1#128

/-- `StreamSeed(seed, sel)` (R51): bump the seed by the increment, then exactly one advance. -/
def streamSeed (seed selector : U128) : U128 × U128 :=
  let i := incOf selector
  let s0 := add128 seed i
  (stateAdvance s0 i, i)

/-- SEED (R52): StreamSeed with selector 0. -/
def execSeed (seed : U128) (s : State) : Host.Outcome State Fault Refusal :=
  let g := streamSeed seed 0#128
  .next (s.complete (s.engine.create g.1 g.2) noData)

/-- SEEDS (R53). -/
def execSeeds (seed selector : U128) (s : State) : Host.Outcome State Fault Refusal :=
  let g := streamSeed seed selector
  .next (s.complete (s.engine.create g.1 g.2) noData)

end Sys2Proof.Machine
end

