-- ==== Sys2Proof/Machine/Dispatch.lean ====
section
/-! DEFINITION. One arm per command: the rule of the decoded command (70_reset_and_hazards.md rule R72). -/

namespace Sys2Proof.Machine

def exec (i : Instr) (s : State) : Host.Outcome State Fault Refusal :=
  match i with
  | .adv => Sys2Proof.Machine.execAdv s
  | .perm value => Sys2Proof.Machine.execPerm value s
  | .next => Sys2Proof.Machine.execNext s
  | .seed seed => Sys2Proof.Machine.execSeed seed s
  | .seeds seed selector => Sys2Proof.Machine.execSeeds seed selector s
  | .load state inc => Sys2Proof.Machine.execLoad state inc s
  | .save => Sys2Proof.Machine.execSave s

end Sys2Proof.Machine
end

