-- ==== Sys2Proof/Machine/Step.lean ====
section
/-! DEFINITION. One step: the host's next event is taken and acted on (70_reset_and_hazards.md rules R70, R72, R74). -/

namespace Sys2Proof.Machine

/-- One step. A command word is decoded, then the rule of its command or rule R61's Illegal applies (R72, R62). With
no event pending the engine does nothing (R63). -/
def step (s : State) : Host.Outcome State Fault Refusal :=
  match s.takeEvent with
  | none => .next s.idle
  | some (.command cw, t) =>
    match decode cw with
    | .command i => exec i t
    | .illegal => .next (t.raise .illegal)
  | some (.reset, t) => .next t.takeReset
  | some (.resetDuring cw, t) => .next (t.takeResetDuring cw)

/-- The state whose next step runs the instruction of a table word: the host issues that word next (log entry 3). -/
def State.withFetchWord (s : State) (nbits w : Nat) : State :=
  { s with pending := .command (tableWord nbits w) :: s.pending }

end Sys2Proof.Machine
end

