-- ==== Sys2Proof/Machine/Assembler.lean ====
section
/-! DEFINITION. The textual forms: a command line (30_encoding.md rule R36), and a command or response word as 66
hexadecimal digits (rules R30, R31). Text is a list of characters. The details R36 leaves open are log entry 14. -/

namespace Sys2Proof.Machine

/-- White space inside a line (log entry 14). -/
def isSpace (c : Char) : Bool := c == ' ' || c == '\t'

/-- The line without its comment: `;` starts one (R36). -/
def stripComment : List Char → List Char
  | [] => []
  | c :: cs => if c == ';' then [] else c :: stripComment cs

/-- The text without leading white space. -/
def dropSpaces : List Char → List Char
  | [] => []
  | c :: cs => if isSpace c then dropSpaces cs else c :: cs

/-- The text without white space at either end. -/
def trim (cs : List Char) : List Char := (dropSpaces (dropSpaces cs).reverse).reverse

/-- The first word of a text, and what stands after it. -/
def firstWord : List Char → List Char × List Char
  | [] => ([], [])
  | c :: cs => if isSpace c then ([], c :: cs) else ((c :: (firstWord cs).1), (firstWord cs).2)

/-- The texts between commas (R36: operands are separated by a comma). -/
def splitCommas : List Char → List (List Char)
  | [] => [[]]
  | c :: cs =>
    if c == ',' then [] :: splitCommas cs
    else match splitCommas cs with
      | [] => [[c]]
      | w :: ws => (c :: w) :: ws

/-- The value of a decimal digit. -/
def decDigit (c : Char) : Option Nat :=
  if 48 ≤ c.toNat ∧ c.toNat ≤ 57 then some (c.toNat - 48) else none

/-- The value of a hexadecimal digit, in either case (log entry 14). -/
def hexDigit (c : Char) : Option Nat :=
  if 48 ≤ c.toNat ∧ c.toNat ≤ 57 then some (c.toNat - 48)
  else if 97 ≤ c.toNat ∧ c.toNat ≤ 102 then some (c.toNat - 87)
  else if 65 ≤ c.toNat ∧ c.toNat ≤ 70 then some (c.toNat - 55)
  else none

/-- Digits after the first one; one `_` may stand between two digits (R36, log entry 14). -/
def moreDigits (base : Nat) (digit : Char → Option Nat) : Nat → List Char → Option Nat
  | acc, [] => some acc
  | acc, '_' :: c :: cs => (digit c).bind fun d => moreDigits base digit (acc * base + d) cs
  | acc, c :: cs => (digit c).bind fun d => moreDigits base digit (acc * base + d) cs

/-- One digit or more. -/
def digits (base : Nat) (digit : Char → Option Nat) : List Char → Option Nat
  | [] => none
  | c :: cs => (digit c).bind fun d => moreDigits base digit d cs

/-- An unsigned literal, decimal or `0x` hexadecimal (R36). -/
def unsignedLiteral : List Char → Option Nat
  | '0' :: 'x' :: cs => digits 16 hexDigit cs
  | cs => digits 10 decDigit cs

/-- An operand's literal, which is unsigned (R36): a text with a sign is no literal, whatever its value. Whether it is
below 2^128 is the check of WellFormed.lean. -/
def literal (cs : List Char) : Option Int := Option.map Int.ofNat (unsignedLiteral cs)

/-- The mnemonics, in capitals (R36). -/
def mnemonicOf : List Char → Option Mnemonic
  | ['A', 'D', 'V'] => some .adv
  | ['P', 'E', 'R', 'M'] => some .perm
  | ['N', 'E', 'X', 'T'] => some .next
  | ['S', 'E', 'E', 'D'] => some .seed
  | ['S', 'E', 'E', 'D', 'S'] => some .seeds
  | ['L', 'O', 'A', 'D'] => some .load
  | ['S', 'A', 'V', 'E'] => some .save
  | _ => none

/-- The literals of an operand list; none if one does not parse. -/
def literals : List (List Char) → Option (List Int)
  | [] => some []
  | w :: ws => (literal (trim w)).bind fun v => (literals ws).map fun vs => v :: vs

/-- The literals after a mnemonic. -/
def operandList (cs : List Char) : Option (List Int) :=
  match trim cs with
  | [] => some []
  | c :: rest => literals (splitCommas (c :: rest))

/-- A command's text as a mnemonic and literals, unchecked. -/
def parseCommand (cs : List Char) : Option SourceCommand :=
  (mnemonicOf (firstWord cs).1).bind fun m => (operandList (firstWord cs).2).map fun vs => ⟨m, vs⟩

/-- A written command whose checks hold, as a command (R36): `a` goes to `A`, `b` to `B`. -/
def commandOf (c : SourceCommand) : Option Instr :=
  if c.wellFormed then
    match c.mnemonic, c.operands with
    | .adv, [] => some .adv
    | .perm, [a] => some (.perm (BitVec.ofInt 128 a))
    | .next, [] => some .next
    | .seed, [a] => some (.seed (BitVec.ofInt 128 a))
    | .seeds, [a, b] => some (.seeds (BitVec.ofInt 128 a) (BitVec.ofInt 128 b))
    | .load, [a, b] => some (.load (BitVec.ofInt 128 a) (BitVec.ofInt 128 b))
    | .save, [] => some .save
    | _, _ => none
  else none

/-- One line of a listing as what the host does: nothing for a line with no command, a reset for the line `RESET`,
else the canonical word of the command (R36). None is an assembly error. -/
def assembleLine (line : List Char) : Option (List HostEvent) :=
  match trim (stripComment line) with
  | [] => some []
  | ['R', 'E', 'S', 'E', 'T'] => some [.reset]
  | cs => ((parseCommand cs).bind commandOf).map fun i => [.command (encode i)]

/-- A listing, one command a line (R36). -/
def assemble : List (List Char) → Option (List HostEvent)
  | [] => some []
  | l :: ls => (assembleLine l).bind fun e => (assemble ls).map fun es => e ++ es

/-- The hexadecimal digit of a value below 16, in lower case as the spec prints it. -/
def hexChar (d : Nat) : Char := if d < 10 then Char.ofNat (48 + d) else Char.ofNat (87 + d)

/-- The `n` low hexadecimal digits of a number, most significant first. -/
def hexDigits : Nat → Nat → List Char
  | 0, _ => []
  | n + 1, v => hexDigits n (v / 16) ++ [hexChar (v % 16)]

/-- A 264-bit word as 66 hexadecimal digits, most significant first (R30, R31). -/
def wordText (w : BitVec 264) : List Char := hexDigits 66 w.toNat

/-- The hexadecimal digits of a text; spaces are for reading only (R30). -/
def hexValues : List Char → Option (List Nat)
  | [] => some []
  | c :: cs =>
    if isSpace c then hexValues cs
    else (hexDigit c).bind fun d => (hexValues cs).map fun ds => d :: ds

/-- The number that digits stand for, most significant first. -/
def ofHexValues (ds : List Nat) : Nat := ds.foldl (fun acc d => acc * 16 + d) 0

/-- The word of a text of 66 hexadecimal digits (R30). -/
def wordOfText (cs : List Char) : Option (BitVec 264) :=
  match hexValues cs with
  | none => none
  | some ds => if ds.length = 66 then some (BitVec.ofNat 264 (ofHexValues ds)) else none

end Sys2Proof.Machine
end

