-- ==== Sys2Proof/Machine/Images.lean ====
section
/-! DEFINITION. The byte images a host stores (20_memory.md rule R26), little-endian. The engine sees none of them. -/

namespace Sys2Proof.Machine

/-- The first `n` bytes of a value, byte `i` being bits `[8i+7 : 8i]` (R26). -/
def imageBytes {w : Nat} (n : Nat) (v : BitVec w) : List U8 :=
  (List.range n).map fun i => v.extractLsb' (8 * i) 8

/-- A u128 as 16 bytes (R26). -/
def u128Image (v : U128) : List U8 := imageBytes 16 v

/-- The save image, 32 bytes: `state` then `inc` (R26; 90_conflicts.md C9). -/
def saveImage (state inc : U128) : List U8 := u128Image state ++ u128Image inc

/-- A command word as 33 bytes (R26). -/
def commandImage (cw : CommandWord) : List U8 := imageBytes 33 cw

/-- A response word as 33 bytes (R26). -/
def responseImage (rw : ResponseWord) : List U8 := imageBytes 33 rw

/-- The number a little-endian image stands for (R26). -/
def ofImage : List U8 → Nat
  | [] => 0
  | b :: rest => b.toNat + 256 * ofImage rest

/-- The LOAD command a host issues for a save image it stored (R26, R55); none if it is not 32 bytes long. -/
def loadOfSaveImage (bytes : List U8) : Option Instr :=
  if bytes.length = 32 then
    some (.load (BitVec.ofNat 128 (ofImage (bytes.take 16))) (BitVec.ofNat 128 (ofImage (bytes.drop 16))))
  else none

/-- The save image a host stores from a SAVE response, whose `DATA` is `{state, inc}` (R26's last paragraph, R56). -/
def saveImageOfResponse (rw : ResponseWord) : List U8 :=
  saveImage (rw.data.extractLsb' 128 128) (rw.data.extractLsb' 0 128)

end Sys2Proof.Machine
end

