-- ==== Sys2Proof/Machine/Run.lean ====
section
/-! DEFINITION. A run as the spec writes it (70_reset_and_hazards.md rule R72): a total step function over the three
registers and one command word, and its fold over a command list. The machine's `step` is to agree with it. -/

namespace Sys2Proof.Machine

/-- The response to an error: its status and zero data (R61). -/
def errorWord (e : CommandError) : ResponseWord := responseWord e.status noData

/-- The pseudocode of the seven rules R42, R48, R49, R52, R53, R55, R56 over the registers alone. -/
def Engine.answer (e : Engine) : Instr → Engine × ResponseWord
  | .adv =>
    if e.valid then
      (⟨stateAdvance e.state e.inc, e.inc, true⟩, responseWord statusOk noData)
    else (e, errorWord .unseeded)
  | .perm v => (e, responseWord statusOk (dataOfWord (outputPermute v)))
  | .next =>
    if e.valid then
      (⟨(nextWord e.state e.inc).2, e.inc, true⟩,
        responseWord statusOk (dataOfWord (nextWord e.state e.inc).1))
    else (e, errorWord .unseeded)
  | .seed a => (⟨(streamSeed a 0#128).1, (streamSeed a 0#128).2, true⟩, responseWord statusOk noData)
  | .seeds a b => (⟨(streamSeed a b).1, (streamSeed a b).2, true⟩, responseWord statusOk noData)
  | .load a b => (⟨a, b, true⟩, responseWord statusOk noData)
  | .save =>
    if e.valid then (e, responseWord statusOk (dataOfPair e.state e.inc))
    else (e, errorWord .unseeded)

/-- `step : (state, inc, valid) x CW -> (state', inc', valid') x RW` (R72). -/
def Engine.stepWord (e : Engine) (cw : CommandWord) : Engine × ResponseWord :=
  match decode cw with
  | .command i => e.answer i
  | .illegal => (e, errorWord .illegal)

/-- `run` of a command list from given registers (R72): the final registers and the responses in order. -/
def Engine.run : Engine → List CommandWord → Engine × List ResponseWord
  | e, [] => (e, [])
  | e, cw :: rest =>
    let r := e.stepWord cw
    let q := Engine.run r.1 rest
    (q.1, r.2 :: q.2)

end Sys2Proof.Machine
end

