-- ==== Sys2Proof/Machine/System.lean ====
section
/-! DEFINITION. Several engines side by side (60_exceptions.md rule R67): each a complete machine, sharing nothing.
Their number `K` and the order in which they step are the system's, not the spec's (92_eei_decisions.md D19). -/

namespace Sys2Proof.Machine

/-- `K` engines, each with its own registers and channels; `K` is the length. -/
abbrev System := List State

/-- Which source each engine draws its reset contents from. -/
def System.drawSources (sys : System) : List Nat := sys.map State.drawSource

/-- A system of the spec: at least one engine, and each with its own reset contents, drawn from a source no other engine
draws from (R67). Where two engines shared a source their contents could be proved equal, against R19. -/
def System.wellFormed (sys : System) : Bool := !sys.isEmpty && decide sys.drawSources.Nodup

/-- `K` engines right after power-up, engine `j` drawing from source `j` (R67, R70). The number is the model's name for
the draws; the engines have no identifiers, and none can read it. -/
def System.powerUp (k : Nat) : System := (List.range k).map State.powerUp

/-- One step of engine `j`; of no engine where there is no `j`-th. -/
def System.stepAt (sys : System) (j : Nat) : Host.Outcome System Fault Refusal :=
  match sys[j]? with
  | none => .next sys
  | some s =>
    match step s with
    | .next t => .next (sys.set j t)
    | .fault r => .fault r
    | .refused r => .refused r

/-- The engines step in the order of a schedule. -/
def System.runSchedule : System → List Nat → Host.Outcome System Fault Refusal
  | sys, [] => .next sys
  | sys, j :: js =>
    match System.stepAt sys j with
    | .next sys' => System.runSchedule sys' js
    | .fault r => .fault r
    | .refused r => .refused r

end Sys2Proof.Machine
end

