-- ==== Sys2Proof/Safety.lean ====
section
/-! DEFINITION. What counts as a safe run, in the terms claims use: responses (60_exceptions.md rule R61, 30_encoding.md
rule R31) and the oddness invariant I1 (10_state.md rule R11). -/

namespace Sys2Proof.Machine

/-- A response without an error (R61: "every response has `ST = 0x00`"). -/
def responseOk (rw : ResponseWord) : Bool := decide (rw.st = 0x00#8)

/-- A response the engine may give (R31): one of three statuses, and zero data unless the status is OK. -/
def responseLegal (rw : ResponseWord) : Bool :=
  decide (rw.st = 0x00#8) ||
    ((decide (rw.st = 0x01#8) || decide (rw.st = 0x02#8)) && decide (rw.data = 0#256))

/-- A run so far in which no response was an error (R61). -/
def State.noError (s : State) : Bool := s.responses.all responseOk

/-- Every response so far is one the engine may give (R31). -/
def State.responsesLegal (s : State) : Bool := s.responses.all responseLegal

/-- Does the command create a GeneratorState (R14, R18)? -/
def creates : Instr → Bool
  | .adv => false
  | .perm _ => false
  | .next => false
  | .seed _ => true
  | .seeds _ _ => true
  | .load _ _ => true
  | .save => false

/-- Does the command use the GeneratorState, so that it raises Unseeded when there is none (R61)? -/
def usesGenerator : Instr → Bool
  | .adv => true
  | .perm _ => false
  | .next => true
  | .seed _ => false
  | .seeds _ _ => false
  | .load _ _ => false
  | .save => true

/-- Does the word decode to a command that creates a GeneratorState? -/
def wordCreates (cw : CommandWord) : Bool :=
  match decode cw with
  | .command i => creates i
  | .illegal => false

/-- Invariant I1 (R11): a created `inc` is odd. Where `valid = 0` it is not used, and may be even (R19). -/
def Engine.oddInc (e : Engine) : Bool := !e.valid || decide (e.inc.toNat % 2 = 1)

/-- A host event that does not break I1: any but a LOAD of an even increment (R11, R75 (a)). -/
def HostEvent.keepsOddInc : HostEvent → Bool
  | .command cw =>
    match decode cw with
    | .command (.load _ i) => decide (i.toNat % 2 = 1)
    | .command _ => true
    | .illegal => true
  | .reset => true
  | .resetDuring _ => true

/-- I1 holds and the host will keep its duty of R75 (a). -/
def State.hostKeepsOddInc (s : State) : Bool := s.engine.oddInc && s.pending.all HostEvent.keepsOddInc

end Sys2Proof.Machine
end

