-- ==== Sys2Proof/Certificates/Slice0/Obligations.lean ====
section
/-! DEFINITION. What is to be proved of the engine. Constants are written out as the spec writes them; a response word
is its status followed by its data, most significant first. -/

open Sys2Proof Sys2Proof.Machine

/-- R13: the two hardwired constants, their widths' values, and the oddness of both. -/
def Obligations.ConstantsAreTheSourceLiterals : Prop :=
  multiplier.toNat = 15750249268501108917 ∧ multiplier.toNat = 0xda942042e4dd58b5 ∧
  defaultInc.toNat = 6364136223846793005 * 2 ^ 64 + 1442695040888963407 ∧
  defaultInc.toNat = 0x5851f42d4c957f2d14057b7ef767814f ∧
  multiplier.toNat % 2 = 1 ∧ defaultInc.toNat % 2 = 1

/-- R35: decode as one total function of the word; every word is `{OPC, A, B}`. -/
def Obligations.DecodeIsTheOpcodeMap : Prop :=
  (∀ (opc : BitVec 8) (a b : BitVec 128),
    decode (opc ++ a ++ b) =
      if opc = 0x01#8 then .command .adv
      else if opc = 0x02#8 then .command (.perm a)
      else if opc = 0x03#8 then .command .next
      else if opc = 0x04#8 then .command (.seed a)
      else if opc = 0x05#8 then .command (.seeds a b)
      else if opc = 0x06#8 then .command (.load a b)
      else if opc = 0x07#8 then .command .save
      else .illegal) ∧
  (∀ cw : BitVec 264, ∃ (opc : BitVec 8) (a b : BitVec 128), cw = opc ++ a ++ b ∧
    opc.toNat = cw.toNat / 2 ^ 256 ∧ a.toNat = cw.toNat / 2 ^ 128 % 2 ^ 128 ∧ b.toNat = cw.toNat % 2 ^ 128)

/-- Decoding the word of a command gives the command back, with every operand at every value. -/
def Obligations.DecodeOfEncodeIsTheCommand : Prop :=
  ∀ i : Instr, decode (encode i) = .command i

/-- A word is the encoding of a command exactly when it decodes to it and its ignored fields are zero. -/
def Obligations.EncodingsAreTheCanonicalWords : Prop :=
  ∀ (i : Instr) (cw : CommandWord), decode cw = .command i ∧ cw.canonical = true ↔ cw = encode i

/-- R33: no field a command does not use changes its effect or its response or raises Illegal, and the canonical
encoding, which the assembler produces, has those fields zero. -/
def Obligations.UnusedOperandFieldsAreIgnored : Prop :=
  (∀ (s : State) (rest : List HostEvent) (opc : BitVec 8) (a b a' b' : BitVec 128),
    opc = 0x01#8 ∨ opc = 0x03#8 ∨ opc = 0x07#8 →
      step { s with pending := .command (opc ++ a ++ b) :: rest } =
        step { s with pending := .command (opc ++ a' ++ b') :: rest } ∧
      decode (opc ++ a ++ b) ≠ .illegal) ∧
  (∀ (s : State) (rest : List HostEvent) (opc : BitVec 8) (a b b' : BitVec 128),
    opc = 0x02#8 ∨ opc = 0x04#8 →
      step { s with pending := .command (opc ++ a ++ b) :: rest } =
        step { s with pending := .command (opc ++ a ++ b') :: rest } ∧
      decode (opc ++ a ++ b) ≠ .illegal) ∧
  encode .adv = 0x01#8 ++ 0#128 ++ 0#128 ∧ encode .next = 0x03#8 ++ 0#128 ++ 0#128 ∧
  encode .save = 0x07#8 ++ 0#128 ++ 0#128 ∧
  (∀ a : BitVec 128, encode (.perm a) = 0x02#8 ++ a ++ 0#128 ∧ encode (.seed a) = 0x04#8 ++ a ++ 0#128) ∧
  (∀ (line : List Char) (cw : BitVec 264), assembleLine line = some [.command cw] → ∃ i, cw = encode i)

/-- R34: a reserved opcode answers Illegal whatever the operands, no register changes, and there are 249 of them. -/
def Obligations.ReservedOpcodesAnswerIllegal : Prop :=
  (∀ (s : State) (rest : List HostEvent) (opc : BitVec 8) (a b : BitVec 128),
    opc.toNat = 0 ∨ 8 ≤ opc.toNat →
      step { s with pending := .command (opc ++ a ++ b) :: rest } =
        .next { s with pending := rest, responses := s.responses ++ [0x01#8 ++ 0#256] }) ∧
  ((List.range 256).filter fun n =>
    decide (decode (BitVec.ofNat 8 n ++ 0#128 ++ 0#128) = .illegal)).length = 249

/-- A few words of spec/95_test_vectors.md section 2.8 decode to what they stand for. -/
def Obligations.SampleWordsDecode : Prop :=
  decode 0x010000000000000000000000000000000000000000000000000000000000000000#264 = .command .adv ∧
  decode 0x020000000000000001000000000000000000000000000000000000000000000000#264 =
    .command (.perm 0x10000000000000000#128) ∧
  decode 0x040000000000000000000000000000002a000000000000000000000000deadbeef#264 = .command (.seed 42#128) ∧
  decode 0x050000000000000000000000000000002a00000000000000000000000000000001#264 =
    .command (.seeds 42#128 1#128) ∧
  decode 0x06ffffffffffffffffffffffffffffffff5851f42d4c957f2d14057b7ef767814f#264 =
    .command (.load 0xffffffffffffffffffffffffffffffff#128 0x5851f42d4c957f2d14057b7ef767814f#128) ∧
  decode 0x070000000000000000000000000000007b000000000000000000000000000001c8#264 = .command .save ∧
  decode 0x080000000000000000000000000000000000000000000000000000000000000000#264 = .illegal

/-- When the host's next command word decodes to a command, the step is that command, run on the state with the word
taken from the channel; nothing else is added. -/
def Obligations.StepRunsTheDecodedCommand : Prop :=
  ∀ (s : State) (cw : BitVec 264) (rest : List HostEvent) (i : Instr),
    s.pending = .command cw :: rest → decode cw = .command i → step s = exec i { s with pending := rest }

/-- With nothing issued the engine does nothing (60_exceptions.md section 3; the idle step is log entry 5). -/
def Obligations.IdleStepChangesNothing : Prop :=
  ∀ s : State, s.pending = [] → step s = .next s

/-- R70, R74: a reset, between commands or during one, clears `valid` and answers nothing; it is the only event other than a
command that changes the registers and the only one that clears `valid`; power-up leaves `valid = 0`; and the engine
never seeds itself: only a command that creates a GeneratorState sets `valid`. -/
def Obligations.ResetClearsValidAndNothingElseDoes : Prop :=
  (∀ (s : State) (rest : List HostEvent) (cw : BitVec 264) (e : HostEvent), e = .reset ∨ e = .resetDuring cw →
    ∃ t, step { s with pending := e :: rest } = .next t ∧ t.engine.valid = false ∧ t.pending = rest ∧
      t.responses = s.responses) ∧
  (∀ s t : State, step s = .next t → t.engine ≠ s.engine → ∃ (e : HostEvent) (rest : List HostEvent),
    s.pending = e :: rest ∧ (e = .reset ∨ (∃ cw, e = .resetDuring cw) ∨ ∃ cw, e = .command cw)) ∧
  (∀ s t : State, step s = .next t → s.engine.valid = true → t.engine.valid = false →
    ∃ (e : HostEvent) (rest : List HostEvent), s.pending = e :: rest ∧ (e = .reset ∨ ∃ cw, e = .resetDuring cw)) ∧
  State.reset.engine.valid = false ∧ Sys2Proof.core.reset = State.reset ∧
  (∀ s t : State, step s = .next t → s.engine.valid = false → t.engine.valid = true →
    ∃ (cw : BitVec 264) (rest : List HostEvent), s.pending = .command cw :: rest ∧ wordCreates cw = true)

/-- The model's choice of reset contents (log entries 1, 2 and 17): each reset draws a fresh pair of free values from the
engine's own source, and power-up takes draw 0. -/
def Obligations.ResetDrawsAFreshPair : Prop :=
  State.reset.engine = ⟨Config.resetState 0 0, Config.resetInc 0 0, false⟩ ∧ State.reset.draws = 1 ∧
  State.reset.drawSource = 0 ∧
  (∀ (s : State) (rest : List HostEvent) (cw : BitVec 264) (e : HostEvent), e = .reset ∨ e = .resetDuring cw →
    step { s with pending := e :: rest } =
      .next { s with
        engine := ⟨Config.resetState s.drawSource s.draws, Config.resetInc s.drawSource s.draws, false⟩
        pending := rest
        draws := s.draws + 1 })

/-- R61, R62: which command words are answered Illegal, which Unseeded, and that neither changes a register; every other
word is answered with status OK. -/
def Obligations.ErrorsAreAnsweredAndChangeNothing : Prop :=
  ∀ (s : State) (rest : List HostEvent) (cw : BitVec 264), s.pending = .command cw :: rest →
    if cw.toNat / 2 ^ 256 = 0 ∨ 8 ≤ cw.toNat / 2 ^ 256 then
      step s = .next { s with pending := rest, responses := s.responses ++ [0x01#8 ++ 0#256] }
    else if s.engine.valid = false ∧
        (cw.toNat / 2 ^ 256 = 1 ∨ cw.toNat / 2 ^ 256 = 3 ∨ cw.toNat / 2 ^ 256 = 7) then
      step s = .next { s with pending := rest, responses := s.responses ++ [0x02#8 ++ 0#256] }
    else ∃ (t : State) (data : BitVec 256), step s = .next t ∧ t.pending = rest ∧
      t.responses = s.responses ++ [0x00#8 ++ data]

/-- R42: ADV on a created state, ADV before creation, its encoding, and the rule's corner cases and worked example. -/
def Obligations.AdvFollowsItsRule : Prop :=
  (∀ s : State, s.engine.valid = true → ∃ v : BitVec 128,
    v.toNat = (s.engine.state.toNat * 0xda942042e4dd58b5 + s.engine.inc.toNat) % 2 ^ 128 ∧
    exec .adv s = .next { s with
      engine := { s.engine with state := v }
      responses := s.responses ++ [0x00#8 ++ 0#256] }) ∧
  (∀ s : State, s.engine.valid = false →
    exec .adv s = .next { s with responses := s.responses ++ [0x02#8 ++ 0#256] }) ∧
  (∀ a b : BitVec 128, decode (0x01#8 ++ a ++ b) = .command .adv) ∧ encode .adv = 0x01#8 ++ 0#256 ∧
  stateAdvance (BitVec.allOnes 128) 0x5851f42d4c957f2d14057b7ef767814f#128 =
    0x5851f42d4c957f2c39715b3c128a289a#128 ∧
  stateAdvance 1#128 0x5851f42d4c957f2d14057b7ef767814f#128 = 0x5851f42d4c957f2dee999bc1dc44da04#128 ∧
  (∀ i : BitVec 128, stateAdvance 0#128 i = i) ∧
  (∀ seed selector : BitVec 128,
    (streamSeed seed selector).1 = stateAdvance (seed + incOf selector) (incOf selector)) ∧
  (∀ (s : State) (n : Nat), ∃ t u : State,
    core.run n { s with pending := List.replicate n (.command (encode .adv)) } = .next t ∧
    core.run n { s with pending := List.replicate n (.command (encode .next)) } = .next u ∧ t.engine = u.engine)

/-- R48: PERM in every state, its encoding, and the rule's corner cases and worked example. -/
def Obligations.PermFollowsItsRule : Prop :=
  (∀ (v : BitVec 128) (s : State), exec (.perm v) s =
    .next { s with responses := s.responses ++ [0x00#8 ++ (outputPermute v).setWidth 256] }) ∧
  (∀ a b : BitVec 128, decode (0x02#8 ++ a ++ b) = .command (.perm a)) ∧
  (∀ a : BitVec 128, encode (.perm a) = 0x02#8 ++ a ++ 0#128) ∧
  (∀ v : BitVec 128, v.toNat < 2 ^ 64 → outputPermute v = 0#64) ∧
  (∀ v : BitVec 128, outputPermute (v ^^^ 1#128) = outputPermute v) ∧
  outputPermute (BitVec.allOnes 128) = 0xe4dd58b4ffffe4de#64 ∧
  outputPermute 0x10000000000000000#128 = 0xda942042e4dd8221#64 ∧
  (∀ (e : Engine) (v : BitVec 128),
    (e.run [encode .next, encode (.perm v), encode .next]).2[2]? = (e.run [encode .next, encode .next]).2[1]?) ∧
  (∀ e : Engine, e.valid = true →
    (e.run [encode (.perm e.state)]).2 = (e.run [encode .next]).2)

/-- R49: NEXT on a created state, NEXT before creation, its encoding, and the rule's corner cases and worked example. -/
def Obligations.NextFollowsItsRule : Prop :=
  (∀ s : State, s.engine.valid = true → ∃ v : BitVec 128,
    v.toNat = (s.engine.state.toNat * 0xda942042e4dd58b5 + s.engine.inc.toNat) % 2 ^ 128 ∧
    exec .next s = .next { s with
      engine := { s.engine with state := v }
      responses := s.responses ++ [0x00#8 ++ (outputPermute s.engine.state).setWidth 256] }) ∧
  (∀ s : State, s.engine.valid = false →
    exec .next s = .next { s with responses := s.responses ++ [0x02#8 ++ 0#256] }) ∧
  (∀ a b : BitVec 128, decode (0x03#8 ++ a ++ b) = .command .next) ∧ encode .next = 0x03#8 ++ 0#256 ∧
  (∀ v : BitVec 128, v.toNat < 2 ^ 64 → outputPermute v = 0#64) ∧
  (∀ n : Nat, Engine.run ⟨0#128, 0#128, true⟩ (List.replicate n (encode .next)) =
    (⟨0#128, 0#128, true⟩, List.replicate n (0x00#8 ++ 0#256))) ∧
  (∀ e : Engine, e.valid = true → ∃ r : BitVec 264,
    e.run [encode .next] = ((e.run [encode .next]).1, [r]) ∧
    e.run [encode (.perm e.state), encode .adv] = ((e.run [encode .next]).1, [r, 0x00#8 ++ 0#256])) ∧
  Engine.run ⟨0x5851f42d4c957f2d14057b7ef767814f#128, 0x5851f42d4c957f2d14057b7ef767814f#128, true⟩ [encode .next] =
    (⟨0x7110175022adf5438fd26b32753c162a#128, 0x5851f42d4c957f2d14057b7ef767814f#128, true⟩,
      [0x38ffff682123e08a#264])

/-- R52: SEED in every state, its encoding, its agreement with SEEDS, and the rule's corner case and worked example. -/
def Obligations.SeedFollowsItsRule : Prop :=
  (∀ (a : BitVec 128) (s : State), ∃ v : BitVec 128,
    v.toNat = ((a.toNat + 0x5851f42d4c957f2d14057b7ef767814f) * 0xda942042e4dd58b5 +
      0x5851f42d4c957f2d14057b7ef767814f) % 2 ^ 128 ∧
    exec (.seed a) s = .next { s with
      engine := ⟨v, 0x5851f42d4c957f2d14057b7ef767814f#128, true⟩
      responses := s.responses ++ [0x00#8 ++ 0#256] }) ∧
  (∀ a b : BitVec 128, decode (0x04#8 ++ a ++ b) = .command (.seed a)) ∧
  (∀ a : BitVec 128, encode (.seed a) = 0x04#8 ++ a ++ 0#128) ∧
  (∀ (a : BitVec 128) (s : State), exec (.seed a) s = exec (.seeds a 0#128) s) ∧
  (∀ e : Engine, (e.run [encode (.seed 0#128)]).1.state = 0x7110175022adf5438fd26b32753c162a#128) ∧
  (∀ e : Engine, (e.run [encode (.seed 42#128)]).1.state = 0x7110175022adf5676c1fb62c018ca3dc#128) ∧
  (∀ e : Engine, (e.run [encode (.seed 42#128), encode .next]).2 = [0#264, 0x161fdf2a9b15ce6f#264])

/-- R53: SEEDS in every state, its encoding, and the rule's corner cases and worked example. -/
def Obligations.SeedsFollowsItsRule : Prop :=
  (∀ (a b : BitVec 128) (s : State), ∃ v i : BitVec 128,
    (i.toNat = if b.toNat = 0 then 0x5851f42d4c957f2d14057b7ef767814f else 2 * b.toNat % 2 ^ 128 + 1) ∧
    v.toNat = ((a.toNat + i.toNat) * 0xda942042e4dd58b5 + i.toNat) % 2 ^ 128 ∧
    exec (.seeds a b) s = .next { s with
      engine := ⟨v, i, true⟩
      responses := s.responses ++ [0x00#8 ++ 0#256] }) ∧
  (∀ a b : BitVec 128, decode (0x05#8 ++ a ++ b) = .command (.seeds a b)) ∧
  (∀ a b : BitVec 128, encode (.seeds a b) = 0x05#8 ++ a ++ b) ∧
  incOf 0#128 = 0x5851f42d4c957f2d14057b7ef767814f#128 ∧ incOf 1#128 = 3#128 ∧
  incOf (BitVec.ofNat 128 (2 ^ 127)) = 1#128 ∧ incOf (BitVec.allOnes 128) = BitVec.allOnes 128 ∧
  (∀ b : BitVec 128, b ≠ 0#128 → b ≠ BitVec.ofNat 128 (2 ^ 127) →
    incOf (b + BitVec.ofNat 128 (2 ^ 127)) = incOf b) ∧
  (∀ e : Engine, (e.run [encode (.seeds 42#128 1#128), encode .next]).2 = [0#264, 0x84c75ffdbc13e14a#264] ∧
    (e.run [encode (.seeds 42#128 1#128)]).1 = ⟨0x00000000000000266c09abc23ae897d4#128, 3#128, true⟩)

/-- R55: LOAD in every state, its encoding, and the rule's worked example. An even increment is no exception: the operands are
not restricted. -/
def Obligations.LoadFollowsItsRule : Prop :=
  (∀ (a b : BitVec 128) (s : State), exec (.load a b) s = .next { s with
      engine := ⟨a, b, true⟩
      responses := s.responses ++ [0x00#8 ++ 0#256] }) ∧
  (∀ a b : BitVec 128, decode (0x06#8 ++ a ++ b) = .command (.load a b)) ∧
  (∀ a b : BitVec 128, encode (.load a b) = 0x06#8 ++ a ++ b) ∧
  (∀ (a b : BitVec 128) (e : Engine) (cws : List (BitVec 264)),
    (e.run (encode (.load a b) :: cws)).2 = (0x00#8 ++ 0#256) :: (Engine.run ⟨a, b, true⟩ cws).2) ∧
  (∀ (a b : BitVec 128) (e : Engine), (e.run [encode (.load a b), encode .adv, encode .next]).1 =
    ⟨stateAdvance (stateAdvance a b) b, b, true⟩ ∧
    (e.run [encode (.load a b), encode .adv, encode .next]).2 =
      [0#264, 0#264, 0x00#8 ++ (outputPermute (stateAdvance a b)).setWidth 256]) ∧
  (∀ e : Engine,
    (e.run [encode (.load (BitVec.allOnes 128) 0x5851f42d4c957f2d14057b7ef767814f#128), encode .adv, encode .save]).2 =
      [0#264, 0#264, 0x005851f42d4c957f2c39715b3c128a289a5851f42d4c957f2d14057b7ef767814f#264])

/-- R56: SAVE on a created state, SAVE before creation, its encoding, that it changes no later response, the recovery of the
seed, and the rule's worked example. -/
def Obligations.SaveFollowsItsRule : Prop :=
  (∀ s : State, s.engine.valid = true → exec .save s =
    .next { s with responses := s.responses ++ [0x00#8 ++ s.engine.state ++ s.engine.inc] }) ∧
  (∀ s : State, s.engine.valid = false →
    exec .save s = .next { s with responses := s.responses ++ [0x02#8 ++ 0#256] }) ∧
  (∀ a b : BitVec 128, decode (0x07#8 ++ a ++ b) = .command .save) ∧ encode .save = 0x07#8 ++ 0#256 ∧
  (∀ (e : Engine) (xs ys : List (BitVec 264)), ∃ r : BitVec 264,
    (e.run (xs ++ encode .save :: ys)).2 = (e.run xs).2 ++ r :: ((e.run xs).1.run ys).2 ∧
    (e.run (xs ++ ys)).2 = (e.run xs).2 ++ ((e.run xs).1.run ys).2) ∧
  (∃ inv : BitVec 128, inv * 0xda942042e4dd58b5#128 = 1#128 ∧ ∀ (seed selector : BitVec 128) (e : Engine),
    ((e.run [encode (.seeds seed selector)]).1.state - (e.run [encode (.seeds seed selector)]).1.inc) * inv -
      (e.run [encode (.seeds seed selector)]).1.inc = seed) ∧
  (∀ e : Engine, (e.run [encode (.seed 42#128), encode .save]).2 =
    [0#264, 0x007110175022adf5676c1fb62c018ca3dc5851f42d4c957f2d14057b7ef767814f#264])

/-- R40: StateAdvance exactly, for every `s` and every `i`, even or odd, as one formula and in limbs; ADV leaves `inc`. -/
def Obligations.StateAdvanceIsExact : Prop :=
  (∀ s i : BitVec 128, (stateAdvance s i).toNat = (s.toNat * 0xda942042e4dd58b5 + i.toNat) % 2 ^ 128) ∧
  (∀ sh sl ih il : BitVec 64,
    let p := sl.toNat * 0xda942042e4dd58b5
    let c := if 2 ^ 64 ≤ p % 2 ^ 64 + il.toNat then 1 else 0
    let lo := (p % 2 ^ 64 + il.toNat) % 2 ^ 64
    let hi := (p / 2 ^ 64 + sh.toNat * 0xda942042e4dd58b5 % 2 ^ 64 + ih.toNat + c) % 2 ^ 64
    (stateAdvance (sh ++ sl) (ih ++ il)).toNat = hi * 2 ^ 64 + lo) ∧
  (∀ s t : State, exec .adv s = .next t → t.engine.inc = s.engine.inc)

/-- R6: the two-limb sum and product are the 128-bit ones, in the spec's limb formulas and as the model's functions. -/
def Obligations.TwoLimbFormsAgree : Prop :=
  (∀ ah al bh bl : BitVec 64,
    (add128 (ah ++ al) (bh ++ bl)).toNat =
      (ah.toNat + bh.toNat + if 2 ^ 64 ≤ al.toNat + bl.toNat then 1 else 0) % 2 ^ 64 * 2 ^ 64 +
        (al.toNat + bl.toNat) % 2 ^ 64) ∧
  (∀ ah al m : BitVec 64,
    (mul128 (ah ++ al) (zext128 m)).toNat =
      (al.toNat * m.toNat / 2 ^ 64 + ah.toNat * m.toNat % 2 ^ 64) % 2 ^ 64 * 2 ^ 64 + al.toNat * m.toNat % 2 ^ 64) ∧
  (∀ a b : BitVec 128, add128Limbs a b = add128 a b) ∧
  (∀ (a : BitVec 128) (m : BitVec 64), mul128Limbs a m = mul128 a (zext128 m)) ∧
  (∀ s i : BitVec 128, stateAdvanceLimbs s i = stateAdvance s i)

/-- R41 (a) to (e). -/
def Obligations.StateAdvanceProperties : Prop :=
  (∀ i : BitVec 128, Function.Bijective fun s => stateAdvance s i) ∧
  (∀ i : BitVec 128, stateAdvance 0#128 i = i) ∧
  (∀ i : BitVec 128, stateAdvance (BitVec.allOnes 128) i = i - 0xda942042e4dd58b5#128) ∧
  (∀ s i : BitVec 128, (stateAdvance s i).getLsbD 0 = (s.getLsbD 0 ^^ i.getLsbD 0)) ∧
  (∀ s i : BitVec 128, i.getLsbD 0 = true → (stateAdvance s i).getLsbD 0 = !s.getLsbD 0) ∧
  stateAdvance 0#128 0#128 = 0#128

/-- R45: OutputPermute bit for bit, its seven steps on naturals. -/
def Obligations.OutputPermuteIsTheSevenSteps : Prop :=
  ∀ v : BitVec 128,
    let hi1 := v.toNat / 2 ^ 64
    let lo1 := v.toNat % 2 ^ 64
    let lo2 := lo1 ||| 1
    let hi3 := hi1 ^^^ (hi1 / 2 ^ 32)
    let hi4 := hi3 * 0xda942042e4dd58b5 % 2 ^ 64
    let hi5 := hi4 ^^^ (hi4 / 2 ^ 48)
    (outputPermute v).toNat = hi5 * lo2 % 2 ^ 64

/-- R46 (a) to (e): PERM reads and writes no register; bit 0 does not matter; a zero high half gives 0; a low half of 0 or
1 leaves the value of step 5; for a fixed low half the map of the high half is a bijection. -/
def Obligations.OutputPermuteProperties : Prop :=
  (∀ (e e' : Engine) (v : BitVec 128), (e.run [encode (.perm v)]).1 = e ∧
    (e.run [encode (.perm v)]).2 = (e'.run [encode (.perm v)]).2) ∧
  (∀ v : BitVec 128, outputPermute (v ^^^ 1#128) = outputPermute v) ∧
  (∀ lo : BitVec 64, outputPermute (0#64 ++ lo) = 0#64) ∧
  (∀ hi lo : BitVec 64, lo = 0#64 ∨ lo = 1#64 →
    outputPermute (hi ++ lo) =
      (hi ^^^ (hi >>> 32)) * 0xda942042e4dd58b5#64 ^^^ (((hi ^^^ (hi >>> 32)) * 0xda942042e4dd58b5#64) >>> 48)) ∧
  (∀ lo : BitVec 64, Function.Bijective fun hi : BitVec 64 => outputPermute (hi ++ lo))

/-- R47: the word is the permutation of the state from before the advance; so the first word after seeding, and the n-th
word after a creation. -/
def Obligations.WordsComeFromPreAdvanceStates : Prop :=
  (∀ s i : BitVec 128, nextWord s i = (outputPermute s, stateAdvance s i)) ∧
  (∀ (e : Engine) (n : Nat), e.valid = true →
    (e.run (List.replicate (n + 1) (encode .next))).2[n]? =
      some (0x00#8 ++ (outputPermute ((fun x => stateAdvance x e.inc)^[n] e.state)).setWidth 256)) ∧
  (∀ (e : Engine) (seed selector : BitVec 128),
    (e.run [encode (.seeds seed selector), encode .next]).2[1]? =
      some (0x00#8 ++ (outputPermute
        (stateAdvance (seed + incOf selector) (incOf selector))).setWidth 256))

/-- R50: the increment of every selector, and that it is odd. -/
def Obligations.IncOfIsTheDerivation : Prop :=
  ∀ selector : BitVec 128,
    ((incOf selector).toNat =
      if selector.toNat = 0 then 0x5851f42d4c957f2d14057b7ef767814f else 2 * selector.toNat % 2 ^ 128 ||| 1) ∧
    (incOf selector).toNat % 2 = 1

/-- 42_stream_seed.md section 5 and R75 (c): which selectors give which increment, (a) to (e). -/
def Obligations.SelectorsThatCollide : Prop :=
  (∀ b : BitVec 128, 1 ≤ b.toNat → b.toNat < 2 ^ 127 → (incOf b).toNat = 2 * b.toNat + 1) ∧
  (∀ k : Nat, 3 ≤ k → k < 2 ^ 128 → k % 2 = 1 →
    ∃ b : BitVec 128, 1 ≤ b.toNat ∧ b.toNat < 2 ^ 127 ∧ (incOf b).toNat = k) ∧
  (∀ b : BitVec 128, 2 ^ 127 ≤ b.toNat → (incOf b).toNat = 2 * (b.toNat - 2 ^ 127) + 1) ∧
  (∀ b : BitVec 128, incOf b = 0x5851f42d4c957f2d14057b7ef767814f#128 ↔
    b = 0#128 ∨ b = 0x2c28fa16a64abf968a02bdbf7bb3c0a7#128 ∨ b = 0xac28fa16a64abf968a02bdbf7bb3c0a7#128) ∧
  (∀ b : BitVec 128, incOf b = 1#128 ↔ b = BitVec.ofNat 128 (2 ^ 127)) ∧
  (∀ i : BitVec 128, i.toNat % 2 = 1 → i ≠ 1#128 → i ≠ 0x5851f42d4c957f2d14057b7ef767814f#128 →
    ∀ b : BitVec 128, incOf b = i ↔ b.toNat = i.toNat / 2 ∨ b.toNat = i.toNat / 2 + 2 ^ 127) ∧
  (∀ b : BitVec 128, (incOf b).toNat % 2 ≠ 0) ∧
  (∀ b b' : BitVec 128, b.toNat < 2 ^ 127 → b'.toNat < 2 ^ 127 → b ≠ 0x2c28fa16a64abf968a02bdbf7bb3c0a7#128 →
    b' ≠ 0x2c28fa16a64abf968a02bdbf7bb3c0a7#128 → incOf b = incOf b' → b = b')

/-- R51: StreamSeed bumps the seed by the increment and advances exactly once; its increment is odd; the first NEXT permutes
the state it leaves; SEED is StreamSeed with selector 0. -/
def Obligations.StreamSeedBumpsThenAdvancesOnce : Prop :=
  ∀ (seed selector : BitVec 128) (e : Engine),
    (streamSeed seed selector).2 = incOf selector ∧
    (streamSeed seed selector).1.toNat =
      ((seed.toNat + (incOf selector).toNat) * 0xda942042e4dd58b5 + (incOf selector).toNat) % 2 ^ 128 ∧
    (streamSeed seed selector).2.toNat % 2 = 1 ∧
    (e.run [encode (.seeds seed selector)]).1 = ⟨(streamSeed seed selector).1, (streamSeed seed selector).2, true⟩ ∧
    (e.run [encode (.seed seed)]).1 = ⟨(streamSeed seed 0#128).1, (streamSeed seed 0#128).2, true⟩ ∧
    (e.run [encode (.seeds seed selector), encode .next]).2[1]? =
      some (0x00#8 ++ (outputPermute (streamSeed seed selector).1).setWidth 256)

/-- R17: which registers each command writes, which it reads, and what its data field is. -/
def Obligations.CommandsTouchOnlyTheirRegisters : Prop :=
  (∀ (i : Instr) (s : State), ∃ (t : State) (r : ResponseWord), exec i s = .next t ∧
    t.pending = s.pending ∧ t.draws = s.draws ∧ t.drawSource = s.drawSource ∧ t.responses = s.responses ++ [r] ∧
    (i ≠ .adv → i ≠ .next → creates i = false → t.engine.state = s.engine.state) ∧
    (creates i = false → t.engine.inc = s.engine.inc ∧ t.engine.valid = s.engine.valid) ∧
    (creates i = true → t.engine.valid = true) ∧
    (usesGenerator i = true → s.engine.valid = false →
      t.engine = s.engine ∧ r = 0x02#8 ++ 0#256) ∧
    (i = .adv ∨ creates i = true → r.data = 0#256) ∧
    ((∃ v, i = .perm v) ∨ i = .next → r.data.toNat < 2 ^ 64) ∧
    (i = .save → s.engine.valid = true → r.data = s.engine.state ++ s.engine.inc)) ∧
  (∀ (i : Instr) (s s' : State) (t t' : State) (r r' : BitVec 264), exec i s = .next t → exec i s' = .next t' →
    t.responses = s.responses ++ [r] → t'.responses = s'.responses ++ [r'] →
    (usesGenerator i = false → r = r') ∧
    (i = .adv → s.engine.valid = s'.engine.valid → r = r') ∧
    (creates i = true → t.engine = t'.engine)) ∧
  (∀ (s : State) (cw : BitVec 264) (rest : List HostEvent), s.pending = .command cw :: rest → decode cw = .illegal →
    step s = .next { s with pending := rest, responses := s.responses ++ [0x01#8 ++ 0#256] })

/-- R14: `valid` is set by SEED, SEEDS and LOAD, cleared by reset, left alone by all else; so it says that a creation has
happened since the last reset; ADV, NEXT and SAVE read it, and no other response shows it. -/
def Obligations.ValidRecordsACreationSinceReset : Prop :=
  (∀ (s : State) (e : HostEvent) (rest : List HostEvent), s.pending = e :: rest → ∃ t, step s = .next t ∧
    t.engine.valid =
      match e with
      | .command cw => wordCreates cw || s.engine.valid
      | .reset => false
      | .resetDuring _ => false) ∧
  (∀ (cw : BitVec 264), wordCreates cw = true ↔
    cw.toNat / 2 ^ 256 = 4 ∨ cw.toNat / 2 ^ 256 = 5 ∨ cw.toNat / 2 ^ 256 = 6) ∧
  (∀ (e : Engine) (cws : List (BitVec 264)), e.valid = false → (e.run cws).1.valid = cws.any wordCreates) ∧
  (∀ (s : State) (i : Instr), i = .adv ∨ i = .next ∨ i = .save → s.engine.valid = false →
    exec i s = .next { s with responses := s.responses ++ [0x02#8 ++ 0#256] }) ∧
  (∀ (st inc : BitVec 128) (i : Instr), i ≠ .adv → i ≠ .next → i ≠ .save →
    (Engine.run ⟨st, inc, true⟩ [encode i]).2 = (Engine.run ⟨st, inc, false⟩ [encode i]).2)

/-- Every response stays legal: one of three statuses, zero data with an error (30_encoding.md section 2). -/
def Obligations.StepKeepsResponsesLegal : Prop :=
  ∀ s t : State, s.responsesLegal = true → step s = .next t → t.responsesLegal = true

/-- I1: with a host that keeps R75 (a), a created increment stays odd (10_state.md section 1). -/
def Obligations.StepKeepsIncOdd : Prop :=
  ∀ s t : State, s.hostKeepsOddInc = true → step s = .next t → t.hostKeepsOddInc = true

/-- The two invariants hold at reset, where the channels are empty (log entries 3 and 4) and `valid = 0`. -/
def Obligations.InvariantsHoldAtReset : Prop :=
  State.reset.responsesLegal = true ∧ State.reset.hostKeepsOddInc = true ∧ State.reset.noError = true

/-- R72: the machine's steps over a command list are the fold of the spec's step function, and the step is total. -/
def Obligations.RunIsTheFoldOfTheStepFunction : Prop :=
  (∀ (s : State) (cws : List (BitVec 264)) (rest : List HostEvent),
    core.run cws.length { s with pending := cws.map .command ++ rest } =
      .next { s with
        engine := (s.engine.run cws).1
        pending := rest
        responses := s.responses ++ (s.engine.run cws).2 }) ∧
  (∀ (e : Engine) (cws : List (BitVec 264)), (e.run cws).2.length = cws.length) ∧
  (∀ s : State, ∃ t, step s = .next t)

/-- Any number of steps from any state answers: the engine never halts, and each command of the first n events gets one
response, resets none (20_memory.md section 2, 70_reset_and_hazards.md sections 3 and 6). That a step with nothing
pending exists, answers, and gives no response is the model's choice, log entry 5. -/
def Obligations.EachCommandGetsOneResponse : Prop :=
  ∀ (n : Nat) (s : State), ∃ t, core.run n s = .next t ∧ t.pending = s.pending.drop n ∧
    s.responses <+: t.responses ∧
    t.responses.length = s.responses.length +
      ((s.pending.take n).filter fun e => match e with
        | .command _ => true
        | .reset => false
        | .resetDuring _ => false).length

/-- R22: after a SEED, SEEDS or LOAD nothing from before it matters; before one, the contents of the registers do not. -/
def Obligations.ResponsesDependOnCommandsSinceCreation : Prop :=
  (∀ (e e' : Engine) (cw : BitVec 264) (cws : List (BitVec 264)), wordCreates cw = true →
    e.run (cw :: cws) = e'.run (cw :: cws)) ∧
  (∀ (e e' : Engine) (cws : List (BitVec 264)), e.valid = false → e'.valid = false →
    (e.run cws).2 = (e'.run cws).2)

/-- R57: an engine that loads a saved pair answers every later command list as the saved engine would. -/
def Obligations.LoadRestoresWhatSaveRead : Prop :=
  ∀ (e e' : Engine) (cws : List (BitVec 264)), e.valid = true →
    e.run [encode .save] = (e, [0x00#8 ++ e.state ++ e.inc]) ∧
    (e'.run (encode (.load e.state e.inc) :: cws)).2 = (0x00#8 ++ 0#256) :: (e.run cws).2

/-- 60_exceptions.md section 6: under every schedule each engine does exactly what it does alone in as many steps. -/
def Obligations.EnginesAreIndependent : Prop :=
  ∀ (sys : System) (schedule : List Nat), ∃ sys', System.runSchedule sys schedule = .next sys' ∧
    sys'.length = sys.length ∧
    ∀ (j : Nat) (s : State), sys[j]? = some s → ∃ t, sys'[j]? = some t ∧
      core.run (schedule.count j) s = .next t

/-- 60_exceptions.md section 6: each engine of a system has its own reset contents. At power-up, and at every reset later, the
pair is drawn from the engine's own source, which in a well-formed system no other engine draws from; power-up makes a
well-formed system, and every schedule keeps it one. The sources and their numbers are the model's choice, log entries 11
and 17. -/
def Obligations.EachEngineHasItsOwnResetContents : Prop :=
  (∀ k : Nat, 1 ≤ k → System.wellFormed (System.powerUp k) = true ∧ (System.powerUp k).length = k ∧
    ∀ j, j < k → ∃ s : State, (System.powerUp k)[j]? = some s ∧
      s.engine = ⟨Config.resetState j 0, Config.resetInc j 0, false⟩ ∧ s.pending = [] ∧ s.responses = []) ∧
  (∀ (sys sys' : System) (schedule : List Nat), System.runSchedule sys schedule = .next sys' →
    System.drawSources sys' = System.drawSources sys ∧
    (System.wellFormed sys = true → System.wellFormed sys' = true)) ∧
  (∀ (sys : System) (j : Nat) (s : State) (e : HostEvent) (rest : List HostEvent),
    sys[j]? = some s → s.pending = e :: rest → (e = .reset ∨ ∃ cw, e = .resetDuring cw) →
      ∃ (sys' : System) (t : State), System.stepAt sys j = .next sys' ∧ sys'[j]? = some t ∧
        t.engine = ⟨Config.resetState s.drawSource s.draws, Config.resetInc s.drawSource s.draws, false⟩ ∧
        ∀ i, i ≠ j → sys'[i]? = sys[i]?) ∧
  (∀ (sys : System) (i j : Nat) (s t : State), System.wellFormed sys = true → i ≠ j →
    sys[i]? = some s → sys[j]? = some t → s.drawSource ≠ t.drawSource)

/-- R60, R68: no operand value and no register content of a created engine causes an error; with an even `inc` every
command keeps its exact meaning. -/
def Obligations.NoOperandCausesAnError : Prop :=
  (∀ (i : Instr) (s : State), s.engine.valid = true ∨ usesGenerator i = false →
    ∃ (t : State) (data : BitVec 256), exec i s = .next t ∧ t.responses = s.responses ++ [0x00#8 ++ data]) ∧
  (∀ s : State, s.engine.valid = true → s.engine.inc.toNat % 2 = 0 → ∃ v : BitVec 128,
    v.toNat = (s.engine.state.toNat * 0xda942042e4dd58b5 + s.engine.inc.toNat) % 2 ^ 128 ∧
    exec .adv s = .next { s with
      engine := { s.engine with state := v }
      responses := s.responses ++ [0x00#8 ++ 0#256] } ∧
    exec .next s = .next { s with
      engine := { s.engine with state := v }
      responses := s.responses ++ [0x00#8 ++ (outputPermute s.engine.state).setWidth 256] } ∧
    exec .save s = .next { s with
      responses := s.responses ++ [0x00#8 ++ s.engine.state ++ s.engine.inc] })

/-- 20_memory.md section 3: PERM and SAVE repeated give the same response and change nothing; a creating command repeated
leaves what it left; NEXT repeated gives the next word. -/
def Obligations.RepeatedCommandsBehaveAsTheirKind : Prop :=
  (∀ (e : Engine) (i : Instr), i = .save ∨ (∃ v, i = .perm v) →
    ∃ r : BitVec 264, e.run [encode i, encode i] = (e, [r, r])) ∧
  (∀ (e : Engine) (i : Instr), creates i = true → (e.run [encode i, encode i]).1 = (e.run [encode i]).1) ∧
  (∀ e : Engine, e.valid = true →
    e.run [encode .next, encode .next] =
      (⟨stateAdvance (stateAdvance e.state e.inc) e.inc, e.inc, true⟩,
        [0x00#8 ++ (outputPermute e.state).setWidth 256,
          0x00#8 ++ (outputPermute (stateAdvance e.state e.inc)).setWidth 256]) ∧
    (e.run [encode .adv, encode .adv]).1 = ⟨stateAdvance (stateAdvance e.state e.inc) e.inc, e.inc, true⟩)

/-- 70_reset_and_hazards.md section 2: until a creating command every ADV, NEXT and SAVE is answered Unseeded and nothing
changes; PERM needs no creation. -/
def Obligations.UnseededUntilCreated : Prop :=
  ∀ (e : Engine) (cws : List (BitVec 264)), e.valid = false → cws.any wordCreates = false →
    (e.run cws).1 = e ∧
    (∀ (k : Nat) (cw : BitVec 264) (i : Instr), cws[k]? = some cw → decode cw = .command i →
      (usesGenerator i = true → (e.run cws).2[k]? = some (0x02#8 ++ 0#256)) ∧
      (∀ v, i = .perm v → (e.run cws).2[k]? = some (0x00#8 ++ (outputPermute v).setWidth 256)))

/-- R26: the byte images, byte for byte, and the host's way from a SAVE response through the save image to LOAD. -/
def Obligations.ByteImagesAreLittleEndian : Prop :=
  (∀ v : BitVec 128, (u128Image v).length = 16 ∧
    ∀ k, k < 16 → ((u128Image v)[k]?).map BitVec.toNat = some (v.toNat / 2 ^ (8 * k) % 256)) ∧
  (∀ state inc : BitVec 128, (saveImage state inc).length = 32 ∧
    (saveImage state inc).take 16 = u128Image state ∧ (saveImage state inc).drop 16 = u128Image inc) ∧
  (∀ (opc : BitVec 8) (a b : BitVec 128),
    commandImage (opc ++ a ++ b) = u128Image b ++ u128Image a ++ [opc]) ∧
  (∀ (st : BitVec 8) (data : BitVec 256), (responseImage (st ++ data)).length = 33 ∧
    (responseImage (st ++ data))[32]? = some st ∧
    ∀ k, k < 32 → ((responseImage (st ++ data))[k]?).map BitVec.toNat = some (data.toNat / 2 ^ (8 * k) % 256)) ∧
  (∀ (word : BitVec 64) (k : Nat), k < 8 →
    ((responseImage (0x00#8 ++ word.setWidth 256))[k]?).map BitVec.toNat = some (word.toNat / 2 ^ (8 * k) % 256)) ∧
  (∀ state inc : BitVec 128, saveImageOfResponse (0x00#8 ++ state ++ inc) = saveImage state inc ∧
    loadOfSaveImage (saveImage state inc) = some (.load state inc))

/-- 30_encoding.md section 5: a written command assembles exactly when its operand count and literals are legal, and then to the
command it lists; the text of a literal is unsigned, so one that begins with a sign is refused whatever its value. -/
def Obligations.AssemblerTakesExactlyLegalCommands : Prop :=
  (∀ i : Instr, commandOf i.source = some i) ∧
  (∀ (c : SourceCommand) (i : Instr), commandOf c = some i ↔ c = i.source) ∧
  (∀ c : SourceCommand, commandOf c = none ↔
    c.operands.length ≠ c.mnemonic.arity ∨ ∃ v ∈ c.operands, v < 0 ∨ (2 : Int) ^ 128 ≤ v) ∧
  (∀ (c : Char) (cs : List Char), c = '-' ∨ c = '+' → literal (c :: cs) = none) ∧
  (∀ (cs : List Char) (v : Int), literal cs = some v → 0 ≤ v)

/-- 30_encoding.md sections 1 and 2: a word's text is 66 digits and reads back as the word. -/
def Obligations.WordTextReadsBack : Prop :=
  ∀ w : BitVec 264, (wordText w).length = 66 ∧ wordOfText (wordText w) = some w
end

