-- ==== Sys2Proof/Laws/Primitives.lean ====
section
/-! SUPPORT. The numeric value of each primitive (00_scope.md rule R4), and the fields of a response word. -/

namespace Sys2Proof.Machine

theorem add128_toNat (a b : U128) : (add128 a b).toNat = (a.toNat + b.toNat) % 2 ^ 128 := by
  simp [add128]

theorem mul128_toNat (a b : U128) : (mul128 a b).toNat = a.toNat * b.toNat % 2 ^ 128 := by
  simp [mul128, Nat.mul_comm]

theorem mul64_toNat (a b : U64) : (mul64 a b).toNat = a.toNat * b.toNat % 2 ^ 64 := by
  simp [mul64, Nat.mul_comm]

theorem shr64_toNat (a : U64) (k : Nat) : (shr64 a k).toNat = a.toNat / 2 ^ k := by
  simp [shr64, Nat.shiftRight_eq_div_pow]

theorem shl128By1_toNat (a : U128) : (shl128By1 a).toNat = 2 * a.toNat % 2 ^ 128 := by
  simp [shl128By1, Nat.shiftLeft_eq, Nat.mul_comm]

theorem xor64_toNat (a b : U64) : (xor64 a b).toNat = a.toNat ^^^ b.toNat := by
  simp [xor64]

theorem or64_toNat (a b : U64) : (or64 a b).toNat = a.toNat ||| b.toNat := by
  simp [or64]

theorem or128_toNat (a b : U128) : (or128 a b).toNat = a.toNat ||| b.toNat := by
  simp [or128]

theorem zext128_toNat (v : U64) : (zext128 v).toNat = v.toNat := by
  simp only [zext128, BitVec.toNat_setWidth]
  exact Nat.mod_eq_of_lt (by omega)

theorem zext256_toNat (v : U64) : (zext256 v).toNat = v.toNat := by
  simp only [zext256, BitVec.toNat_setWidth]
  exact Nat.mod_eq_of_lt (by omega)

theorem hi64_toNat (v : U128) : (hi64 v).toNat = v.toNat / 2 ^ 64 := by
  simp only [hi64, BitVec.extractLsb'_toNat, Nat.shiftRight_eq_div_pow]
  exact Nat.mod_eq_of_lt (by omega)

theorem lo64_toNat (v : U128) : (lo64 v).toNat = v.toNat % 2 ^ 64 := by
  simp [lo64, BitVec.extractLsb'_toNat]

theorem append_toNat {m n : Nat} (x : BitVec m) (y : BitVec n) :
    (x ++ y).toNat = x.toNat * 2 ^ n + y.toNat := by
  rw [BitVec.toNat_append, Nat.shiftLeft_eq, Nat.mul_comm, Nat.two_pow_add_eq_or_of_lt y.isLt]

theorem limbs_toNat (h l : U64) : (limbs h l).toNat = h.toNat * 2 ^ 64 + l.toNat := append_toNat h l

@[simp] theorem hi64_append (h l : U64) : hi64 (h ++ l) = h := by
  apply BitVec.eq_of_toNat_eq
  rw [hi64_toNat, append_toNat]
  omega

@[simp] theorem lo64_append (h l : U64) : lo64 (h ++ l) = l := by
  apply BitVec.eq_of_toNat_eq
  rw [lo64_toNat, append_toNat]
  omega

/-- Every 128-bit value is its two halves. -/
theorem append_halves (v : U128) : (hi64 v ++ lo64 v : BitVec 128) = v := by
  apply BitVec.eq_of_toNat_eq
  rw [append_toNat, hi64_toNat, lo64_toNat]
  omega

@[simp] theorem responseWord_st (st : U8) (data : U256) : (responseWord st data).st = st := by
  apply BitVec.eq_of_toNat_eq
  simp only [responseWord, ResponseWord.st, BitVec.extractLsb'_toNat, append_toNat, Nat.shiftRight_eq_div_pow]
  omega

@[simp] theorem responseWord_data (st : U8) (data : U256) : (responseWord st data).data = data := by
  apply BitVec.eq_of_toNat_eq
  simp only [responseWord, ResponseWord.data, BitVec.extractLsb'_toNat, append_toNat, Nat.shiftRight_eq_div_pow]
  omega

end Sys2Proof.Machine
end

