-- ==== Sys2Proof/Laws/Decode.lean ====
section
/-! SUPPORT. The fields of a command word (30_encoding.md rule R30). -/

namespace Sys2Proof

open Machine

theorem CommandWord.opc_toNat (cw : CommandWord) : cw.opc.toNat = cw.toNat / 2 ^ 256 := by
  simp only [CommandWord.opc, BitVec.extractLsb'_toNat, Nat.shiftRight_eq_div_pow]
  exact Nat.mod_eq_of_lt (by omega)

theorem CommandWord.a_toNat (cw : CommandWord) : cw.a.toNat = cw.toNat / 2 ^ 128 % 2 ^ 128 := by
  simp only [CommandWord.a, BitVec.extractLsb'_toNat, Nat.shiftRight_eq_div_pow]

theorem CommandWord.b_toNat (cw : CommandWord) : cw.b.toNat = cw.toNat % 2 ^ 128 := by
  simp [CommandWord.b, BitVec.extractLsb'_toNat]

theorem commandWord_toNat (opc : U8) (a b : U128) :
    (commandWord opc a b).toNat = (opc.toNat * 2 ^ 128 + a.toNat) * 2 ^ 128 + b.toNat := by
  simp only [commandWord, append_toNat]

@[simp] theorem commandWord_opc (opc : U8) (a b : U128) : (commandWord opc a b).opc = opc := by
  apply BitVec.eq_of_toNat_eq
  rw [CommandWord.opc_toNat, commandWord_toNat]
  omega

@[simp] theorem commandWord_a (opc : U8) (a b : U128) : (commandWord opc a b).a = a := by
  apply BitVec.eq_of_toNat_eq
  rw [CommandWord.a_toNat, commandWord_toNat]
  omega

@[simp] theorem commandWord_b (opc : U8) (a b : U128) : (commandWord opc a b).b = b := by
  apply BitVec.eq_of_toNat_eq
  rw [CommandWord.b_toNat, commandWord_toNat]
  omega

/-- A SAVE response is laid out as the command word that would hold the pair in its operands (R56, R55). -/
theorem responseWord_pair (st : U8) (s i : U128) : responseWord st (dataOfPair s i) = commandWord st s i := by
  apply BitVec.eq_of_toNat_eq
  simp only [responseWord, dataOfPair, commandWord, append_toNat]
  omega

/-- A word is its three fields. -/
theorem commandWord_fields (cw : CommandWord) : commandWord cw.opc cw.a cw.b = cw := by
  apply BitVec.eq_of_toNat_eq
  rw [commandWord_toNat, CommandWord.opc_toNat, CommandWord.a_toNat, CommandWord.b_toNat]
  omega

end Sys2Proof
end

