-- ==== Sys2Proof/Laws/PerInstr.lean ====
section
/-! SUPPORT. The family EncodingFields: the fields of each command's word are its opcode and operands (30_encoding.md
rules R30, R32, R33). -/

namespace Sys2Proof.Laws.EncodingFields

/-- The word of a command holds its opcode and its operands, and zero where it uses none. -/
def Statement (i : Instr) : Prop :=
  (encode i).opc = i.opcode ∧ (encode i).a = i.operandA ∧ (encode i).b = i.operandB

theorem adv : Statement .adv := by simp [Statement, encode]
theorem perm (value : U128) : Statement (.perm value) := by simp [Statement, encode]
theorem next : Statement .next := by simp [Statement, encode]
theorem seed (seed : U128) : Statement (.seed seed) := by simp [Statement, encode]
theorem seeds (seed selector : U128) : Statement (.seeds seed selector) := by simp [Statement, encode]
theorem load (state inc : U128) : Statement (.load state inc) := by simp [Statement, encode]
theorem save : Statement .save := by simp [Statement, encode]

end Sys2Proof.Laws.EncodingFields
end

