-- ==== Sys2Proof/Laws/State.lean ====
section
/-! SUPPORT. What each update of the state does to each field, and what each shared operation does. -/

namespace Sys2Proof.Machine

/-! The registers. -/

section
variable (e : Engine) (v i : U128)

@[simp] theorem Engine.writeState_state : (e.writeState v).state = v := rfl
@[simp] theorem Engine.writeState_inc : (e.writeState v).inc = e.inc := rfl
@[simp] theorem Engine.writeState_valid : (e.writeState v).valid = e.valid := rfl
@[simp] theorem Engine.create_eq : e.create v i = ⟨v, i, true⟩ := rfl
@[simp] theorem Engine.isCreated_eq : e.isCreated = e.valid := rfl
@[simp] theorem Engine.afterReset_state (src n : Nat) : (Engine.afterReset src n).state = Config.resetState src n := rfl
@[simp] theorem Engine.afterReset_inc (src n : Nat) : (Engine.afterReset src n).inc = Config.resetInc src n := rfl
@[simp] theorem Engine.afterReset_valid (src n : Nat) : (Engine.afterReset src n).valid = false := rfl

end

@[simp] theorem State.powerUp_engine (src : Nat) : (State.powerUp src).engine = Engine.afterReset src 0 := rfl
@[simp] theorem State.powerUp_pending (src : Nat) : (State.powerUp src).pending = [] := rfl
@[simp] theorem State.powerUp_responses (src : Nat) : (State.powerUp src).responses = [] := rfl
@[simp] theorem State.powerUp_draws (src : Nat) : (State.powerUp src).draws = 1 := rfl
@[simp] theorem State.powerUp_drawSource (src : Nat) : (State.powerUp src).drawSource = src := rfl

/-! The state: replacing the registers, answering, raising, completing, reset. -/

section
variable (s : State) (e : Engine) (st : U8) (data : U256) (err : CommandError)

@[simp] theorem State.withEngine_engine : (s.withEngine e).engine = e := rfl
@[simp] theorem State.withEngine_pending : (s.withEngine e).pending = s.pending := rfl
@[simp] theorem State.withEngine_responses : (s.withEngine e).responses = s.responses := rfl
@[simp] theorem State.withEngine_draws : (s.withEngine e).draws = s.draws := rfl
@[simp] theorem State.withEngine_drawSource : (s.withEngine e).drawSource = s.drawSource := rfl

@[simp] theorem State.respond_engine : (s.respond st data).engine = s.engine := rfl
@[simp] theorem State.respond_pending : (s.respond st data).pending = s.pending := rfl
@[simp] theorem State.respond_responses :
    (s.respond st data).responses = s.responses ++ [responseWord st data] := rfl
@[simp] theorem State.respond_draws : (s.respond st data).draws = s.draws := rfl
@[simp] theorem State.respond_drawSource : (s.respond st data).drawSource = s.drawSource := rfl

@[simp] theorem State.raise_engine : (s.raise err).engine = s.engine := rfl
@[simp] theorem State.raise_pending : (s.raise err).pending = s.pending := rfl
@[simp] theorem State.raise_responses :
    (s.raise err).responses = s.responses ++ [responseWord err.status noData] := rfl
@[simp] theorem State.raise_draws : (s.raise err).draws = s.draws := rfl
@[simp] theorem State.raise_drawSource : (s.raise err).drawSource = s.drawSource := rfl

@[simp] theorem State.complete_engine : (s.complete e data).engine = e := rfl
@[simp] theorem State.complete_pending : (s.complete e data).pending = s.pending := rfl
@[simp] theorem State.complete_responses :
    (s.complete e data).responses = s.responses ++ [responseWord statusOk data] := rfl
@[simp] theorem State.complete_draws : (s.complete e data).draws = s.draws := rfl
@[simp] theorem State.complete_drawSource : (s.complete e data).drawSource = s.drawSource := rfl

@[simp] theorem State.takeReset_engine : s.takeReset.engine = Engine.afterReset s.drawSource s.draws := rfl
@[simp] theorem State.takeReset_pending : s.takeReset.pending = s.pending := rfl
@[simp] theorem State.takeReset_responses : s.takeReset.responses = s.responses := rfl
@[simp] theorem State.takeReset_draws : s.takeReset.draws = s.draws + 1 := rfl
@[simp] theorem State.takeReset_drawSource : s.takeReset.drawSource = s.drawSource := rfl
@[simp] theorem State.takeResetDuring_eq (cw : CommandWord) : s.takeResetDuring cw = s.takeReset := rfl
@[simp] theorem State.idle_eq : s.idle = s := rfl

/-- A command that uses the pair, where there is one: it does its body. -/
theorem State.whenCreated_of_valid {s : State} (body : State) (h : s.engine.valid = true) :
    s.whenCreated body = body := by simp [State.whenCreated, h]

/-- A command that uses the pair, where there is none: it raises Unseeded. -/
theorem State.whenCreated_of_not_valid {s : State} (body : State) (h : s.engine.valid = false) :
    s.whenCreated body = s.raise .unseeded := by simp [State.whenCreated, h]

/-- All that a command using the pair can do. -/
theorem State.whenCreated_cases (body : State) :
    (s.engine.valid = true ∧ s.whenCreated body = body) ∨
      (s.engine.valid = false ∧ s.whenCreated body = s.raise .unseeded) := by
  cases h : s.engine.valid
  · exact .inr ⟨rfl, State.whenCreated_of_not_valid body h⟩
  · exact .inl ⟨rfl, State.whenCreated_of_valid body h⟩

@[simp] theorem State.takeEvent_of_nil {s : State} (h : s.pending = []) : s.takeEvent = none := by
  simp [State.takeEvent, h]

@[simp] theorem State.takeEvent_of_cons {s : State} {ev : HostEvent} {rest : List HostEvent}
    (h : s.pending = ev :: rest) : s.takeEvent = some (ev, { s with pending := rest }) := by
  simp [State.takeEvent, h]

end

end Sys2Proof.Machine
end

