-- ==== Sys2Proof/Laws/Run.lean ====
section
/-! SUPPORT. The machine's meaning of each command is the spec's pseudocode over the registers (Machine/Run.lean); and
running the machine, one step at a time. -/

namespace Sys2Proof.Machine

/-- A command leaves the registers and adds the response that the pseudocode gives, and does nothing else. -/
theorem exec_eq_answer (i : Instr) (s : State) :
    exec i s = .next { s with
      engine := (s.engine.answer i).1
      responses := s.responses ++ [(s.engine.answer i).2] } := by
  obtain ⟨⟨st, inc, v⟩, p, r, d⟩ := s
  cases i <;> cases v <;> rfl

/-- No step. -/
theorem core_run_zero (s : State) : core.run 0 s = .next s := rfl

/-- A step that answers, then the rest. -/
theorem core_run_succ {s t : State} (n : Nat) (h : step s = .next t) : core.run (n + 1) s = core.run n t := by
  have hc : core.step s = .next t := h
  simp only [Host.Core.run, hc]

end Sys2Proof.Machine
end

