-- ==== Sys2Proof/Laws/Step.lean ====
section
/-! SUPPORT. What a command and a step can do, said once. -/

namespace Sys2Proof.Machine

/-- All that a command can do to the channels: it gives one response and takes nothing more from the host. -/
theorem exec_next_cases {i : Instr} {s t : State} (h : exec i s = .next t) :
    ∃ (e : Engine) (st : U8) (data : U256), t = (s.withEngine e).respond st data ∧
      (st = statusOk ∨ e = s.engine ∧ st = CommandError.unseeded.status ∧ data = noData) := by
  cases i <;> simp only [exec, execAdv, execPerm, execNext, execSeed, execSeeds, execLoad, execSave,
    Host.Outcome.next.injEq] at h
  case adv | next | save =>
    rcases s.whenCreated_cases _ with ⟨_, hb⟩ | ⟨_, hb⟩ <;> rw [hb] at h <;> subst h
    · exact ⟨_, _, _, rfl, .inl rfl⟩
    · exact ⟨s.engine, _, _, rfl, .inr ⟨rfl, rfl, rfl⟩⟩
  all_goals exact ⟨_, _, _, h.symm, .inl rfl⟩

/-- All that a step can do. -/
theorem step_next_cases {s t : State} (h : step s = .next t) :
    (s.pending = [] ∧ t = s) ∨
    (∃ cw rest i, s.pending = .command cw :: rest ∧ decode cw = .command i ∧
      exec i { s with pending := rest } = .next t) ∨
    (∃ cw rest, s.pending = .command cw :: rest ∧ decode cw = .illegal ∧
      t = State.raise { s with pending := rest } .illegal) ∨
    (∃ e rest, s.pending = e :: rest ∧ (e = .reset ∨ ∃ cw, e = .resetDuring cw) ∧
      t = State.takeReset { s with pending := rest }) := by
  cases hp : s.pending with
  | nil =>
    rw [step, State.takeEvent_of_nil hp] at h
    exact .inl ⟨rfl, by simpa using h.symm⟩
  | cons e rest =>
    rw [step, State.takeEvent_of_cons hp] at h
    refine .inr ?_
    cases e with
    | command cw =>
      cases hd : decode cw with
      | command i => exact .inl ⟨cw, rest, i, rfl, hd, by simpa only [hd] using h⟩
      | illegal => exact .inr (.inl ⟨cw, rest, rfl, hd, by simpa [hd] using h.symm⟩)
    | reset => exact .inr (.inr ⟨_, rest, rfl, .inl rfl, by simpa using h.symm⟩)
    | resetDuring cw => exact .inr (.inr ⟨_, rest, rfl, .inr ⟨cw, rfl⟩, by simpa using h.symm⟩)

/-- No step changes whose free values the resets draw. -/
theorem step_drawSource {s t : State} (h : step s = .next t) : t.drawSource = s.drawSource := by
  rcases step_next_cases h with ⟨_, rfl⟩ | ⟨_, _, _, _, _, hx⟩ | ⟨_, _, _, _, rfl⟩ | ⟨_, _, _, _, rfl⟩
  · rfl
  · obtain ⟨_, _, _, rfl, _⟩ := exec_next_cases hx
    rfl
  · rfl
  · rfl

end Sys2Proof.Machine
end

