-- ==== Sys2Proof/Laws/System.lean ====
section
/-! SUPPORT. What a step of one engine of a system can do, and the power-up of a system. -/

namespace Sys2Proof.Machine

/-- There is no such engine: nothing happens. -/
theorem stepAt_of_none {sys : System} {j : Nat} (h : sys[j]? = none) : System.stepAt sys j = .next sys := by
  simp [System.stepAt, h]

/-- The engine steps in its place, and no other engine is touched. -/
theorem stepAt_of_step {sys : System} {j : Nat} {s t : State} (h : sys[j]? = some s) (ht : step s = .next t) :
    System.stepAt sys j = .next (sys.set j t) := by
  simp [System.stepAt, h, ht]

/-- All that a step of engine `j` can do. -/
theorem stepAt_next_cases {sys sys' : System} {j : Nat} (h : System.stepAt sys j = .next sys') :
    (sys[j]? = none ∧ sys' = sys) ∨
      ∃ s t, sys[j]? = some s ∧ step s = .next t ∧ sys' = sys.set j t := by
  cases hj : sys[j]? with
  | none =>
    rw [stepAt_of_none hj, Host.Outcome.next.injEq] at h
    exact .inl ⟨rfl, h.symm⟩
  | some s =>
    cases ht : step s with
    | next t =>
      rw [stepAt_of_step hj ht, Host.Outcome.next.injEq] at h
      exact .inr ⟨s, t, rfl, ht, h.symm⟩
    | fault r => cases r
    | refused r => simp [System.stepAt, hj, ht] at h

/-- At power-up engine `j` draws from source `j`. -/
@[simp] theorem powerUp_drawSources (k : Nat) : System.drawSources (System.powerUp k) = List.range k := by
  simp [System.drawSources, System.powerUp, Function.comp_def]

end Sys2Proof.Machine
end

