-- ==== Sys2Proof/Laws/WellFormed.lean ====
section
/-! SUPPORT. Every decoded command is well formed: no operand value is rejected (60_exceptions.md rule R60). -/

namespace Sys2Proof

/-- A 128-bit value is a literal in range. -/
theorem literalInRange_toNat (v : U128) : literalInRange (v.toNat : Int) = true := by
  have := v.isLt
  simp only [literalInRange, Bool.and_eq_true, decide_eq_true_eq]
  constructor
  · omega
  · exact_mod_cast this

theorem Instr.wellFormed_eq_true (i : Instr) : i.wellFormed = true := by
  cases i <;> simp [Instr.wellFormed, Instr.source, SourceCommand.wellFormed, Mnemonic.arity, literalInRange_toNat]

end Sys2Proof
end

