-- ==== Sys2Proof/Tests/Slice0.lean ====
section
/-! SUPPORT. Tests against spec/95_test_vectors.md, the smoke test of the syntax checks, and for each statement of
Obligations.lean that has hypotheses a state and operands that meet them. -/

set_option exponentiation.threshold 512

namespace Sys2Proof.Tests

open Machine

/-- `DEFAULT_INC`, as 95_test_vectors.md prints it. -/
def D : U128 := 0x5851f42d4c957f2d14057b7ef767814f#128

/-- A state with these registers and the host about to issue these words. -/
def at_ (st inc : U128) (valid : Bool) (words : List CommandWord) : State :=
  { engine := ⟨st, inc, valid⟩, pending := words.map .command, responses := [], draws := 1, drawSource := 0 }

/-- The state of an outcome that has one. -/
def next? : Host.Outcome State Fault Refusal → Option State
  | .next s => some s
  | .fault _ => none
  | .refused _ => none

/-- The registers after one step. -/
def regs (s : State) : Option Engine := (next? (step s)).map State.engine

/-- The responses after one step. -/
def answers (s : State) : Option (List ResponseWord) := (next? (step s)).map State.responses

/-! The syntax checks: an ill-formed term for each. -/

theorem test_negative_literal_refused : SourceCommand.wellFormed ⟨.seed, [-1]⟩ = false := by decide
theorem test_literal_too_large_refused : SourceCommand.wellFormed ⟨.load, [0, 2 ^ 128]⟩ = false := by decide
theorem test_missing_operand_refused : SourceCommand.wellFormed ⟨.seeds, [42]⟩ = false := by decide
theorem test_extra_operand_refused : SourceCommand.wellFormed ⟨.next, [0]⟩ = false := by decide
theorem test_largest_literal_accepted : SourceCommand.wellFormed ⟨.perm, [2 ^ 128 - 1]⟩ = true := by decide

/-! Decoding: words written out from R30 and R32; section 2.8, E1 to E13. -/

theorem test_decode_adv :
    decode 0x010000000000000000000000000000000000000000000000000000000000000000#264 = .command .adv := by decide
theorem test_decode_perm :
    decode 0x020000000000000001000000000000000000000000000000000000000000000000#264 =
      .command (.perm 0x10000000000000000#128) := by decide
theorem test_decode_next_ignores_operands :
    decode 0x03ffffffffffffffffffffffffffffffffffffffffffffffffffffffffffffffff#264 = .command .next := by decide
theorem test_decode_seed_ignores_b :
    decode 0x040000000000000000000000000000002a000000000000000000000000deadbeef#264 =
      .command (.seed 42#128) := by decide
theorem test_decode_seeds :
    decode 0x050000000000000000000000000000002a00000000000000000000000000000001#264 =
      .command (.seeds 42#128 1#128) := by decide
theorem test_decode_load :
    decode 0x06ffffffffffffffffffffffffffffffff5851f42d4c957f2d14057b7ef767814f#264 =
      .command (.load 0xffffffffffffffffffffffffffffffff#128 D) := by decide
theorem test_decode_save_ignores_operands :
    decode 0x070000000000000000000000000000007b000000000000000000000000000001c8#264 = .command .save := by decide
theorem test_decode_zero_word_illegal : decode 0#264 = .illegal := by decide
theorem test_decode_08_illegal :
    decode 0x080000000000000000000000000000000000000000000000000000000000000000#264 = .illegal := by decide
theorem test_decode_ff_illegal :
    decode 0xffffffffffffffffffffffffffffffffffffffffffffffffffffffffffffffffff#264 = .illegal := by decide
theorem test_encode_seeds :
    encode (.seeds 42#128 1#128) = 0x050000000000000000000000000000002a00000000000000000000000000000001#264 := by
  decide
theorem test_table_word :
    decodeTableWord 264 0x030000000000000000000000000000000000000000000000000000000000000000 = some .next := by decide

/-! One step of each command, twice. -/

/-- Vector A3. -/
theorem test_adv_all_ones :
    regs (at_ (BitVec.allOnes 128) D true [encode .adv]) =
      some ⟨0x5851f42d4c957f2c39715b3c128a289a#128, D, true⟩ := by decide
/-- Section 2.8, E1: after reset. -/
theorem test_adv_unseeded :
    answers (State.reset.withFetchWord 264 0x010000000000000000000000000000000000000000000000000000000000000000) =
      some [0x020000000000000000000000000000000000000000000000000000000000000000#264] := by decide

/-- Vector O8: the shift of step 3 is logical. -/
theorem test_perm_all_ones : outputPermute (BitVec.allOnes 128) = 0xe4dd58b4ffffe4de#64 := by decide
/-- Vector O12, as a step before seeding. -/
theorem test_perm_unseeded :
    answers (at_ 0 0 false [encode (.perm 0x0123456789abcdeffedcba9876543210#128)]) =
      some [0xa5c2f45958c644a2#264] := by decide

/-- Vector X1: the word is of the state from before the advance. -/
theorem test_next_word_is_pre_advance :
    answers (at_ D D true [encode .next]) = some [0x38ffff682123e08a#264] ∧
      regs (at_ D D true [encode .next]) = some ⟨0x7110175022adf5438fd26b32753c162a#128, D, true⟩ := by decide
/-- Vector X6: an even increment is computed the same way. -/
theorem test_next_even_inc :
    answers (at_ 0xbaa09ca73f3265b6af5a433e78f9a165#128 2 true [encode .next]) = some [0xc4b90994b64a8ada#264] ∧
      regs (at_ 0xbaa09ca73f3265b6af5a433e78f9a165#128 2 true [encode .next]) =
        some ⟨0x50b7fd88154a243c67880409a02ad46b#128, 2, true⟩ := by decide

/-- Section 2.5, seed 42, selector 0. -/
theorem test_seed_42 :
    regs (at_ 7 8 false [encode (.seed 42#128)]) = some ⟨0x7110175022adf5676c1fb62c018ca3dc#128, D, true⟩ := by decide
/-- Section 2.5, seed 0, selector 0. -/
theorem test_seed_0 :
    regs (at_ 7 8 true [encode (.seed 0#128)]) = some ⟨0x7110175022adf5438fd26b32753c162a#128, D, true⟩ := by decide

/-- Section 2.5, all ones: `seed + inc` wraps. -/
theorem test_seeds_all_ones :
    regs (at_ 0 0 false [encode (.seeds (BitVec.allOnes 128) (BitVec.allOnes 128))]) =
      some ⟨0xfffffffffffffffe4ad7bf7a36454e95#128, BitVec.allOnes 128, true⟩ := by decide
/-- Section 2.5, seed 42, selector 2^127: bit 127 is lost. -/
theorem test_seeds_top_bit :
    regs (at_ 0 0 false [encode (.seeds 42#128 0x80000000000000000000000000000000#128)]) =
      some ⟨0x0000000000000024b6e16b3c712de668#128, 1#128, true⟩ := by decide

/-- Section 2.7, L1: no warm-up. -/
theorem test_load_exact :
    regs (at_ 0 0 false [encode (.load (BitVec.allOnes 128) D)]) = some ⟨BitVec.allOnes 128, D, true⟩ := by decide
/-- Section 2.7, L2: an even increment, bit 0 not forced. -/
theorem test_load_even_inc : regs (at_ 0 0 false [encode (.load 1#128 2#128)]) = some ⟨1#128, 2#128, true⟩ := by
  decide

/-- Section 2.7, L4. -/
theorem test_save_pair :
    answers (at_ 0x7110175022adf5676c1fb62c018ca3dc#128 D true [encode .save]) =
      some [0x007110175022adf5676c1fb62c018ca3dc5851f42d4c957f2d14057b7ef767814f#264] := by decide
/-- Section 2.7, L3. -/
theorem test_save_unseeded :
    answers (State.reset.withFetchWord 264 0x070000000000000000000000000000000000000000000000000000000000000000) =
      some [0x020000000000000000000000000000000000000000000000000000000000000000#264] := by decide

/-- Section 2.8, E10: DATA is zero, not an echo. -/
theorem test_illegal_answer :
    answers (at_ 1 2 true [0xffffffffffffffffffffffffffffffffffffffffffffffffffffffffffffffffff#264]) =
      some [0x010000000000000000000000000000000000000000000000000000000000000000#264] := by decide

/-! The selector's increment and the limb forms: section 2.4 I6v, I12v; section 2.1 A7. -/

theorem test_incOf_crosses_limbs :
    incOf 0x00000000000000008000000000000000#128 = 0x00000000000000010000000000000001#128 := by decide
theorem test_incOf_collides_with_default : incOf 0x2c28fa16a64abf968a02bdbf7bb3c0a7#128 = D := by decide
theorem test_limbs_carry :
    stateAdvanceLimbs 0x0000000000000000ffffffffffffffff#128 3#128 = 0xda942042e4dd58b4256bdfbd1b22a74e#128 := by
  decide

/-! The textual forms and the byte images (R36, R30, R26). -/

/-- `SEEDS 42, 0x1 ; lane 1` -/
theorem test_assemble_seeds :
    assembleLine ['S','E','E','D','S',' ','4','2',',',' ','0','x','1',' ',';',' ','l','a','n','e',' ','1'] =
      some [.command (encode (.seeds 42#128 1#128))] := by decide
/-- `PERM 1_000` -/
theorem test_assemble_underscore :
    assembleLine ['P','E','R','M',' ','1','_','0','0','0'] = some [.command (encode (.perm 1000#128))] := by decide
/-- `RESET`, and a comment alone. -/
theorem test_assemble_reset_and_blank :
    assemble [['R','E','S','E','T'], [';',' ','x'], []] = some [.reset] := by decide
/-- `SEED -1` -/
theorem test_assemble_negative_refused : assembleLine ['S','E','E','D',' ','-','1'] = none := by decide
/-- `SEED -0` and `SEED -0x0`: an operand is an unsigned literal, so a sign is refused whatever the value. -/
theorem test_assemble_signed_zero_refused :
    assembleLine ['S','E','E','D',' ','-','0'] = none ∧ assembleLine ['S','E','E','D',' ','-','0','x','0'] = none ∧
      assembleLine ['S','E','E','D',' ','0'] = some [.command (encode (.seed 0#128))] := by decide
/-- `next`: mnemonics are in capitals. -/
theorem test_assemble_small_letters_refused : assembleLine ['n','e','x','t'] = none := by decide
/-- Section 2.7, the save image after SEED 42: its first two bytes, the first byte of `inc`, the last byte. -/
theorem test_save_image :
    (saveImage 0x7110175022adf5676c1fb62c018ca3dc#128 D)[0]? = some 0xdc#8 ∧
      (saveImage 0x7110175022adf5676c1fb62c018ca3dc#128 D)[1]? = some 0xa3#8 ∧
      (saveImage 0x7110175022adf5676c1fb62c018ca3dc#128 D)[16]? = some 0x4f#8 ∧
      (saveImage 0x7110175022adf5676c1fb62c018ca3dc#128 D)[31]? = some 0x58#8 := by decide
/-- Section 2.8, the image of E4: `B`, then `2a`, then the opcode last. -/
theorem test_command_image :
    (commandImage (encode (.seed 42#128)))[15]? = some 0x00#8 ∧
      (commandImage (encode (.seed 42#128)))[16]? = some 0x2a#8 ∧
      (commandImage (encode (.seed 42#128)))[32]? = some 0x04#8 := by decide
theorem test_word_text_ends : (wordText (encode (.seed 42#128))).take 2 = ['0', '4'] := by decide

/-! Witnesses: for each statement with hypotheses, values that meet them; a clause at each boundary. -/

/-- EncodingsAreTheCanonicalWords. -/
theorem witness_canonical_word :
    decode (commandWord 0x02#8 (BitVec.allOnes 128) 0#128) = .command (.perm (BitVec.allOnes 128)) ∧
      (commandWord 0x02#8 (BitVec.allOnes 128) 0#128).canonical = true ∧
      (commandWord 0x02#8 0#128 1#128).canonical = false := by decide
/-- UnusedOperandFieldsAreIgnored: each opcode of its clauses, and a line that assembles to a command. -/
theorem witness_unused_fields :
    ([0x01#8, 0x03#8, 0x07#8].all fun o : U8 => decide (o = 0x01#8 ∨ o = 0x03#8 ∨ o = 0x07#8)) = true ∧
      ([0x02#8, 0x04#8].all fun o : U8 => decide (o = 0x02#8 ∨ o = 0x04#8)) = true ∧
      assembleLine ['S', 'A', 'V', 'E'] = some [.command (encode .save)] := by decide
/-- ReservedOpcodesAnswerIllegal: the reserved values next to the defined ones, and the last. -/
theorem witness_reserved_opcodes :
    ([0x00#8, 0x08#8, 0xff#8].all fun o : U8 => decide (o.toNat = 0 ∨ 8 ≤ o.toNat)) = true := by decide
/-- StepRunsTheDecodedCommand, ErrorsAreAnsweredAndChangeNothing, ValidRecordsACreationSinceReset. -/
theorem witness_command_pending :
    (at_ D D true [encode .next]).pending = .command (encode .next) :: [] ∧ decode (encode .next) = .command .next := by
  decide
/-- IdleStepChangesNothing. -/
theorem witness_nothing_pending : State.reset.pending = [] := rfl
/-- ResetClearsValidAndNothingElseDoes, ResetDrawsAFreshPair: a reset that clears `valid`, of either kind. -/
theorem witness_reset_clears :
    ((regs { at_ D D true [] with pending := [.reset] }).map Engine.valid) = some false ∧
      ((regs { at_ D D true [] with pending := [.resetDuring 0#264] }).map Engine.valid) = some false ∧
      (at_ D D true []).engine.valid = true := ⟨rfl, rfl, rfl⟩
/-- ResetClearsValidAndNothingElseDoes: a step that sets `valid`. -/
theorem witness_valid_becomes_one :
    (at_ 0 0 false [encode (.seed 42#128)]).engine.valid = false ∧
      (regs (at_ 0 0 false [encode (.seed 42#128)])).map Engine.valid = some true := by decide
/-- ResetClearsValidAndNothingElseDoes: a step that changes the registers. -/
theorem witness_registers_change : regs (at_ 0 1 true [encode .adv]) ≠ some ⟨0, 1, true⟩ := by decide
/-- AdvFollowsItsRule, NextFollowsItsRule, SaveFollowsItsRule: both values of `valid`, after reset and after LOAD. -/
theorem witness_valid_both_ways :
    (at_ D D true []).engine.valid = true ∧ State.reset.engine.valid = false := ⟨rfl, rfl⟩
/-- PermFollowsItsRule, NextFollowsItsRule: the largest value with a zero high half. -/
theorem witness_zero_high_half : (0x0000000000000000ffffffffffffffff#128).toNat < 2 ^ 64 := by decide
/-- SeedsFollowsItsRule: a selector that is neither 0 nor 2^127. -/
theorem witness_plain_selector : (1#128) ≠ 0#128 ∧ (1#128) ≠ BitVec.ofNat 128 (2 ^ 127) := by decide
/-- StateAdvanceIsExact: an ADV that answers. -/
theorem witness_adv_answers : (next? (exec .adv (at_ 0 1 true []))).isSome = true := by decide
/-- StateAdvanceProperties: an odd increment. -/
theorem witness_odd_increment : (D).getLsbD 0 = true := by decide
/-- OutputPermuteProperties: both low halves of its clause. -/
theorem witness_low_half : ([0#64, 1#64].all fun lo : U64 => decide (lo = 0#64 ∨ lo = 1#64)) = true := by decide
/-- WordsComeFromPreAdvanceStates, LoadRestoresWhatSaveRead, RepeatedCommandsBehaveAsTheirKind. -/
theorem witness_created_engine : (Engine.mk D D true).valid = true := rfl
/-- SelectorsThatCollide, clause by clause at its boundaries. -/
theorem witness_selectors :
    (1 ≤ (1#128).toNat ∧ (1#128).toNat < 2 ^ 127) ∧ (3 ≤ 3 ∧ 3 < 2 ^ 128 ∧ 3 % 2 = 1) ∧
      (2 ^ 127 ≤ (BitVec.ofNat 128 (2 ^ 127)).toNat) ∧
      ((3#128).toNat % 2 = 1 ∧ (3#128) ≠ 1#128 ∧ (3#128) ≠ D) ∧
      incOf 5#128 = incOf 5#128 ∧ (5#128) ≠ 0x2c28fa16a64abf968a02bdbf7bb3c0a7#128 := by decide
/-- CommandsTouchOnlyTheirRegisters: two states that answer, an instruction of each class, and an illegal word. -/
theorem witness_register_classes :
    creates (.load 0#128 0#128) = true ∧ creates .save = false ∧ usesGenerator .save = true ∧
      usesGenerator (.perm 0#128) = false ∧ decode 0#264 = .illegal ∧
      answers (at_ 1 2 true [encode .adv]) = answers (at_ 3 4 true [encode .adv]) := by decide
/-- ValidRecordsACreationSinceReset: a creation from each command, and an uncreated engine. -/
theorem witness_creations :
    wordCreates (encode (.seed 0#128)) = true ∧ wordCreates (encode (.seeds 0#128 0#128)) = true ∧
      wordCreates (encode (.load 0#128 0#128)) = true ∧ wordCreates (encode .save) = false ∧
      (Engine.mk 0 0 false).valid = false := by decide
/-- StepKeepsResponsesLegal: a state with an error answered and one with none. -/
theorem witness_legal_responses :
    State.responsesLegal { at_ 0 0 false [encode .next] with responses := [responseWord 0x02#8 0#256] } = true ∧
      State.responsesLegal { at_ 0 0 false [] with responses := [responseWord 0x03#8 0#256] } = false ∧
      (answers (at_ 0 0 false [encode .next])).isSome = true := by decide
/-- StepKeepsIncOdd: a host that keeps its duty, about to LOAD an odd increment; one that does not. -/
theorem witness_odd_host :
    State.hostKeepsOddInc (at_ 0 1 true [encode (.load 0#128 3#128), encode .next]) = true ∧
      State.hostKeepsOddInc (at_ 0 1 true [encode (.load 0#128 2#128)]) = false ∧
      (answers (at_ 0 1 true [encode (.load 0#128 3#128)])).isSome = true := by decide
/-- ResponsesDependOnCommandsSinceCreation, UnseededUntilCreated. -/
theorem witness_uncreated_engines :
    (Engine.mk 0 0 false).valid = false ∧ (Engine.mk 5 6 false).valid = false ∧
      [encode .next, encode (.perm 1#128), encode .save].any wordCreates = false ∧
      [encode .next, encode (.perm 1#128)][1]? = some (encode (.perm 1#128)) := by decide
/-- EachEngineHasItsOwnResetContents: a power-up of two engines, a system it admits, and one with a shared source, which it
does not; an engine of it with a reset pending. -/
theorem witness_own_sources :
    System.wellFormed (System.powerUp 2) = true ∧ System.wellFormed [State.reset, State.reset] = false ∧
      System.wellFormed [] = false ∧ 1 ≤ 1 ∧
      ({ State.powerUp 1 with pending := [.reset] } : State).pending = .reset :: [] := by decide
/-- EnginesAreIndependent: an engine of a system. -/
theorem witness_system :
    ([at_ 0 1 true [encode .next], at_ 0 3 true []] : System)[1]? = some (at_ 0 3 true []) := by decide
/-- NoOperandCausesAnError: a created engine with an even increment; a command that needs no creation. -/
theorem witness_even_increment :
    (at_ 0 2 true []).engine.valid = true ∧ (at_ 0 2 true []).engine.inc.toNat % 2 = 0 ∧
      usesGenerator (.seed 0#128) = false := by decide
/-- ByteImagesAreLittleEndian: the last byte of each image. -/
theorem witness_image_bounds : 15 < 16 ∧ 31 < 32 ∧ 7 < 8 := by decide

end Sys2Proof.Tests
end

section
/-! PROOF. The two-limb sum and product are the 128-bit ones (00_scope.md rule R6). -/

namespace Sys2Proof.Machine

theorem carry64_toNat (a b : U64) :
    (carry64 a b).toNat = if 2 ^ 64 ≤ a.toNat + b.toNat then 1 else 0 := by
  unfold carry64
  split <;> rfl

/-- The high half of a full product needs no reduction. -/
theorem mulHi64_toNat (a b : U64) : (mulHi64 a b).toNat = a.toNat * b.toNat / 2 ^ 64 := by
  have hprod : a.toNat * b.toNat < 2 ^ 64 * 2 ^ 64 := Nat.mul_lt_mul'' a.isLt b.isLt
  rw [mulHi64, BitVec.toNat_ofNat]
  exact Nat.mod_eq_of_lt (Nat.div_lt_of_lt_mul hprod)

theorem add128_append_toNat (ah al bh bl : U64) :
    (add128 (ah ++ al) (bh ++ bl)).toNat =
      (ah.toNat + bh.toNat + if 2 ^ 64 ≤ al.toNat + bl.toNat then 1 else 0) % 2 ^ 64 * 2 ^ 64 +
        (al.toNat + bl.toNat) % 2 ^ 64 := by
  rw [add128_toNat, append_toNat, append_toNat]
  split <;> omega

/-- Schoolbook multiplication: the high limb's product is shifted by one limb, so only its low half stays. -/
theorem mul128_append_zext128_toNat (ah al m : U64) :
    (mul128 (ah ++ al) (zext128 m)).toNat =
      (al.toNat * m.toNat / 2 ^ 64 + ah.toNat * m.toNat % 2 ^ 64) % 2 ^ 64 * 2 ^ 64 +
        al.toNat * m.toNat % 2 ^ 64 := by
  rw [mul128_toNat, zext128_toNat, append_toNat, Nat.add_mul, Nat.mul_right_comm]
  omega

theorem add128Limbs_eq_add128 (a b : U128) : add128Limbs a b = add128 a b := by
  apply BitVec.eq_of_toNat_eq
  have hsum := add128_append_toNat (hi64 a) (lo64 a) (hi64 b) (lo64 b)
  rw [append_halves, append_halves] at hsum
  rw [hsum, add128Limbs, limbs_toNat, BitVec.toNat_add, BitVec.toNat_add, BitVec.toNat_add, carry64_toNat,
    Nat.mod_add_mod]

theorem mul128Limbs_eq_mul128 (a : U128) (m : U64) : mul128Limbs a m = mul128 a (zext128 m) := by
  apply BitVec.eq_of_toNat_eq
  have hprod := mul128_append_zext128_toNat (hi64 a) (lo64 a) m
  rw [append_halves] at hprod
  rw [hprod, mul128Limbs, limbs_toNat, BitVec.toNat_add, mulHi64_toNat, mul64_toNat, mul64_toNat]

theorem stateAdvanceLimbs_eq_stateAdvance (s i : U128) : stateAdvanceLimbs s i = stateAdvance s i := by
  rw [stateAdvanceLimbs, stateAdvance, mul128Limbs_eq_mul128, add128Limbs_eq_add128]

/-- Settles O21: the limb formulas by the value of a sum and of a product of two halves, and the model's limb functions
from them. -/
theorem twoLimbFormsAgree : Obligations.TwoLimbFormsAgree :=
  ⟨add128_append_toNat, mul128_append_zext128_toNat, add128Limbs_eq_add128, mul128Limbs_eq_mul128,
    stateAdvanceLimbs_eq_stateAdvance⟩

end Sys2Proof.Machine
end

section
/-! PROOF. What a command does to each register and what it answers, from its pseudocode over the registers (rule R72);
the decoder on a command's own word; a step that takes a command word. -/

namespace Sys2Proof.Machine

/-! One command over the registers (10_state.md rules R14, R17). -/

theorem usesGenerator_iff (i : Instr) : usesGenerator i = true ↔ i = .adv ∨ i = .next ∨ i = .save := by
  cases i <;> simp [usesGenerator]

/-- ADV, NEXT and SAVE without a GeneratorState raise Unseeded. -/
theorem Engine.answer_of_unseeded {e : Engine} {i : Instr} (hi : usesGenerator i = true) (he : e.valid = false) :
    e.answer i = (e, errorWord .unseeded) := by
  cases i with
  | adv | next | save => simp [Engine.answer, he]
  | perm | seed | seeds | load => simp [usesGenerator] at hi

/-- A creating command reads no register. -/
theorem Engine.answer_of_creates {i : Instr} (hi : creates i = true) (e e' : Engine) : e.answer i = e'.answer i := by
  cases i with
  | seed | seeds | load => rfl
  | adv | perm | next | save => simp [creates] at hi

theorem Engine.answer_valid (e : Engine) (i : Instr) : (e.answer i).1.valid = (creates i || e.valid) := by
  cases i with
  | adv | next | save => cases h : e.valid <;> simp [Engine.answer, creates, h]
  | perm | seed | seeds | load => rfl

theorem Engine.answer_inc {i : Instr} (hi : creates i = false) (e : Engine) : (e.answer i).1.inc = e.inc := by
  cases i with
  | adv | next | save => cases h : e.valid <;> simp [Engine.answer, h]
  | perm => rfl
  | seed | seeds | load => simp [creates] at hi

/-- Only ADV, NEXT and the creating commands write `state`. -/
theorem Engine.answer_state {i : Instr} (hadv : i ≠ .adv) (hnext : i ≠ .next) (hi : creates i = false) (e : Engine) :
    (e.answer i).1.state = e.state := by
  cases i with
  | adv => contradiction
  | next => contradiction
  | perm => rfl
  | save => cases h : e.valid <;> simp [Engine.answer, h]
  | seed | seeds | load => simp [creates] at hi

/-- The response of PERM and of a creating command shows no register, not even `valid`. -/
theorem Engine.answer_response_congr {i : Instr} (hi : usesGenerator i = false) (e e' : Engine) :
    (e.answer i).2 = (e'.answer i).2 := by
  cases i with
  | perm | seed | seeds | load => rfl
  | adv | next | save => simp [usesGenerator] at hi

/-- ADV's response shows `valid` and nothing else. -/
theorem Engine.answer_adv_response_congr {e e' : Engine} (h : e.valid = e'.valid) :
    (e.answer .adv).2 = (e'.answer .adv).2 := by
  cases he : e'.valid <;> simp [Engine.answer, h, he]

@[simp] theorem errorWord_data (err : CommandError) : (errorWord err).data = 0#256 := responseWord_data _ _

theorem dataOfWord_lt (w : U64) : (dataOfWord w).toNat < 2 ^ 64 := by
  rw [dataOfWord, zext256_toNat]
  exact w.isLt

theorem Engine.answer_data_of_adv_or_creates {i : Instr} (hi : i = .adv ∨ creates i = true) (e : Engine) :
    (e.answer i).2.data = 0#256 := by
  cases i with
  | adv => cases h : e.valid <;> simp [Engine.answer, noData, h]
  | seed | seeds | load => exact responseWord_data _ _
  | perm | next | save => simp [creates] at hi

theorem Engine.answer_data_lt_of_perm_or_next {i : Instr} (hi : (∃ v, i = .perm v) ∨ i = .next) (e : Engine) :
    (e.answer i).2.data.toNat < 2 ^ 64 := by
  rcases hi with ⟨v, rfl⟩ | rfl
  · simpa [Engine.answer] using dataOfWord_lt (outputPermute v)
  · cases h : e.valid
    · simp [Engine.answer, h]
    · simpa [Engine.answer, h] using dataOfWord_lt _

theorem Engine.answer_data_of_save {e : Engine} (he : e.valid = true) :
    (e.answer .save).2.data = e.state ++ e.inc := by
  simp [Engine.answer, he, dataOfPair]

/-! The decoder on a command's own word, and the opcodes of the creating commands (30_encoding.md rules R32, R35). -/

theorem decode_encode (i : Instr) : decode (encode i) = .command i := by
  cases i <;> simp [decode, encode, Instr.opcode, Instr.operandA, Instr.operandB]

theorem opc_of_decode_command {cw : CommandWord} {i : Instr} (h : decode cw = .command i) :
    cw.opc.toNat = i.opcode.toNat := by
  unfold decode at h
  split at h <;> cases h <;> assumption

theorem opc_of_decode_illegal {cw : CommandWord} (h : decode cw = .illegal) :
    cw.opc.toNat = 0 ∨ 8 ≤ cw.opc.toNat := by
  unfold decode at h
  split at h
  case h_8 =>
    simp only [imp_false] at *
    omega
  all_goals cases h

theorem wordCreates_iff (cw : CommandWord) :
    wordCreates cw = true ↔ cw.opc.toNat = 4 ∨ cw.opc.toNat = 5 ∨ cw.opc.toNat = 6 := by
  cases hd : decode cw with
  | command i =>
    rw [opc_of_decode_command hd]
    cases i <;> simp [wordCreates, hd, creates, Instr.opcode]
  | illegal =>
    have hopc := opc_of_decode_illegal hd
    simp only [wordCreates, hd, Bool.false_eq_true, false_iff]
    omega

/-! One command word, and a list of them, over the registers (70_reset_and_hazards.md rule R72). -/

theorem Engine.stepWord_of_command {cw : CommandWord} {i : Instr} (h : decode cw = .command i) (e : Engine) :
    e.stepWord cw = e.answer i := by simp [Engine.stepWord, h]

theorem Engine.stepWord_of_illegal {cw : CommandWord} (h : decode cw = .illegal) (e : Engine) :
    e.stepWord cw = (e, errorWord .illegal) := by simp [Engine.stepWord, h]

theorem Engine.stepWord_valid (e : Engine) (cw : CommandWord) :
    (e.stepWord cw).1.valid = (wordCreates cw || e.valid) := by
  cases h : decode cw with
  | command i => simp [Engine.stepWord_of_command h, Engine.answer_valid, wordCreates, h]
  | illegal => simp [Engine.stepWord_of_illegal h, wordCreates, h]

theorem Engine.run_valid (e : Engine) (cws : List CommandWord) :
    (e.run cws).1.valid = (cws.any wordCreates || e.valid) := by
  induction cws generalizing e with
  | nil => rfl
  | cons cw cws ih =>
    calc (e.run (cw :: cws)).1.valid
        = (cws.any wordCreates || (e.stepWord cw).1.valid) := ih _
      _ = ((cw :: cws).any wordCreates || e.valid) := by
        rw [Engine.stepWord_valid, List.any_cons, Bool.or_left_comm, Bool.or_assoc]

/-- A run of one command's own word is the command's pseudocode. -/
theorem Engine.run_encode (e : Engine) (i : Instr) : e.run [encode i] = ((e.answer i).1, [(e.answer i).2]) := by
  simp [Engine.run, Engine.stepWord_of_command (decode_encode i)]

theorem State.raise_eq (s : State) (err : CommandError) :
    s.raise err = { s with responses := s.responses ++ [errorWord err] } := rfl

/-- A step that takes a command word does to the registers and the responses what the spec's step function does. -/
theorem step_of_command {s : State} {cw : CommandWord} {rest : List HostEvent}
    (h : s.pending = .command cw :: rest) :
    step s = .next { s with
      pending := rest
      engine := (s.engine.stepWord cw).1
      responses := s.responses ++ [(s.engine.stepWord cw).2] } := by
  cases hd : decode cw with
  | command i => simp [step, State.takeEvent_of_cons h, hd, exec_eq_answer, Engine.stepWord_of_command hd]
  | illegal => simp [step, State.takeEvent_of_cons h, hd, State.raise_eq, Engine.stepWord_of_illegal hd]

end Sys2Proof.Machine
end

section
/-! PROOF. The frame of every command: rule R17's table of reads and writes. -/

namespace Sys2Proof.Machine

/-- The registers and the one response of a command that answers. -/
theorem exec_next_engine_response {i : Instr} {s t : State} {r : ResponseWord} (h : exec i s = .next t)
    (hr : t.responses = s.responses ++ [r]) : t.engine = (s.engine.answer i).1 ∧ r = (s.engine.answer i).2 := by
  rw [exec_eq_answer, Host.Outcome.next.injEq] at h
  subst h
  exact ⟨rfl, by simpa using hr.symm⟩

/-- Settles O29: the machine's command is its pseudocode over the registers, whose reads, writes and data the lemmas on
`Engine.answer` give one register at a time. -/
theorem commandsTouchOnlyTheirRegisters : Obligations.CommandsTouchOnlyTheirRegisters := by
  refine ⟨fun i s => ?writes, fun i s s' t t' r r' h h' hr hr' => ?reads, fun s cw rest hp hd => ?illegal⟩
  case writes =>
    refine ⟨_, _, exec_eq_answer i s, rfl, rfl, rfl, rfl, fun hadv hnext hi => Engine.answer_state hadv hnext hi _,
      fun hi => ⟨Engine.answer_inc hi _, ?_⟩, fun hi => ?_, fun hi hv => ?_,
      fun hi => Engine.answer_data_of_adv_or_creates hi _, fun hi => Engine.answer_data_lt_of_perm_or_next hi _, ?_⟩
    · simp [Engine.answer_valid, hi]
    · simp [Engine.answer_valid, hi]
    · rw [Engine.answer_of_unseeded hi hv]
      exact ⟨rfl, rfl⟩
    · rintro rfl hv
      exact Engine.answer_data_of_save hv
  case reads =>
    obtain ⟨he, rfl⟩ := exec_next_engine_response h hr
    obtain ⟨he', rfl⟩ := exec_next_engine_response h' hr'
    refine ⟨fun hi => Engine.answer_response_congr hi _ _, ?_, fun hi => ?_⟩
    · rintro rfl hv
      exact Engine.answer_adv_response_congr hv
    · rw [he, he', Engine.answer_of_creates hi]
  case illegal =>
    rw [step_of_command hp, Engine.stepWord_of_illegal hd]
    rfl

end Sys2Proof.Machine
end

section
/-! PROOF. The flag `valid` records a creation since the last reset (rule R14). -/

namespace Sys2Proof.Machine

/-- A step that takes a reset, of either kind, leaves what the reset leaves. -/
theorem step_of_reset {s : State} {rest : List HostEvent} (h : s.pending = .reset :: rest) :
    step s = .next (State.takeReset { s with pending := rest }) := by
  simp [step, State.takeEvent_of_cons h]

theorem step_of_resetDuring {s : State} {cw : CommandWord} {rest : List HostEvent}
    (h : s.pending = .resetDuring cw :: rest) : step s = .next (State.takeReset { s with pending := rest }) := by
  simp [step, State.takeEvent_of_cons h]

theorem exec_of_unseeded {i : Instr} {s : State} (hi : usesGenerator i = true) (hs : s.engine.valid = false) :
    exec i s = .next (s.raise .unseeded) := by
  rw [exec_eq_answer, Engine.answer_of_unseeded hi hs, State.raise_eq]

/-- Settles O30: a step's `valid` event by event, the opcodes by the decoder, a command list by induction over it. -/
theorem validRecordsACreationSinceReset : Obligations.ValidRecordsACreationSinceReset := by
  refine ⟨fun s ev rest hp => ?step, fun cw => ?opcodes, fun e cws he => ?list, fun s i hi hs => ?unseeded,
    fun st inc i hadv hnext hsave => ?unseen⟩
  case step =>
    cases ev with
    | command cw => exact ⟨_, step_of_command hp, Engine.stepWord_valid _ _⟩
    | reset => exact ⟨_, step_of_reset hp, rfl⟩
    | resetDuring cw => exact ⟨_, step_of_resetDuring hp, rfl⟩
  case opcodes =>
    rw [← CommandWord.opc_toNat]
    exact wordCreates_iff cw
  case list => rw [Engine.run_valid, he, Bool.or_false]
  case unseeded => exact exec_of_unseeded ((usesGenerator_iff i).mpr hi) hs
  case unseen =>
    have hu : usesGenerator i = false := by
      simp [← Bool.not_eq_true, usesGenerator_iff, hadv, hnext, hsave]
    rw [Engine.run_encode, Engine.run_encode, Engine.answer_response_congr hu]

end Sys2Proof.Machine
end

section
/-! PROOF. The responses depend on the commands since the last creation and on nothing else (20_memory.md rule R22). -/

namespace Sys2Proof.Machine

/-- A word of SEED, SEEDS or LOAD leaves the same registers and gives the same response in every engine. -/
theorem Engine.stepWord_of_wordCreates {cw : CommandWord} (h : wordCreates cw = true) (e e' : Engine) :
    e.stepWord cw = e'.stepWord cw := by
  cases hd : decode cw with
  | command i =>
    have hi : creates i = true := by simpa [wordCreates, hd] using h
    rw [Engine.stepWord_of_command hd, Engine.stepWord_of_command hd, Engine.answer_of_creates hi e e']
  | illegal => simp [wordCreates, hd] at h

theorem Engine.run_cons_of_wordCreates {cw : CommandWord} (h : wordCreates cw = true) (e e' : Engine)
    (cws : List CommandWord) : e.run (cw :: cws) = e'.run (cw :: cws) := by
  simp only [Engine.run, Engine.stepWord_of_wordCreates h e e']

/-- Before a creation a command either raises Unseeded or reads no register. -/
theorem Engine.answer_response_of_not_valid {e e' : Engine} (he : e.valid = false) (he' : e'.valid = false)
    (i : Instr) : (e.answer i).2 = (e'.answer i).2 := by
  cases hi : usesGenerator i with
  | true => rw [Engine.answer_of_unseeded hi he, Engine.answer_of_unseeded hi he']
  | false => exact Engine.answer_response_congr hi e e'

theorem Engine.stepWord_response_of_not_valid {e e' : Engine} (he : e.valid = false) (he' : e'.valid = false)
    (cw : CommandWord) : (e.stepWord cw).2 = (e'.stepWord cw).2 := by
  cases hd : decode cw with
  | command i =>
    rw [Engine.stepWord_of_command hd, Engine.stepWord_of_command hd]
    exact Engine.answer_response_of_not_valid he he' i
  | illegal => rw [Engine.stepWord_of_illegal hd, Engine.stepWord_of_illegal hd]

/-- Two engines without a GeneratorState answer alike: a creating word makes them equal, any other leaves both without. -/
theorem Engine.run_responses_of_not_valid {e e' : Engine} (he : e.valid = false) (he' : e'.valid = false)
    (cws : List CommandWord) : (e.run cws).2 = (e'.run cws).2 := by
  induction cws generalizing e e' with
  | nil => rfl
  | cons cw cws ih =>
    cases hc : wordCreates cw with
    | true => rw [Engine.run_cons_of_wordCreates hc e e']
    | false =>
      have hnext : (e.stepWord cw).1.valid = false := by simp [Engine.stepWord_valid, hc, he]
      have hnext' : (e'.stepWord cw).1.valid = false := by simp [Engine.stepWord_valid, hc, he']
      simp only [Engine.run, Engine.stepWord_response_of_not_valid he he' cw, ih hnext hnext']

/-- Settles O36: a creating word reads no register, and without a GeneratorState no response shows one. -/
theorem responsesDependOnCommandsSinceCreation : Obligations.ResponsesDependOnCommandsSinceCreation :=
  ⟨fun e e' _ cws hc => Engine.run_cons_of_wordCreates hc e e' cws,
    fun _ _ cws he he' => Engine.run_responses_of_not_valid he he' cws⟩

end Sys2Proof.Machine
end

section
/-! PROOF. The byte images are little-endian, and a save image reads back as its pair (20_memory.md rule R26). -/

namespace Sys2Proof.Machine

@[simp] theorem imageBytes_length {w : Nat} (n : Nat) (v : BitVec w) : (imageBytes n v).length = n := by
  simp [imageBytes]

/-- Bits `8k+7` to `8k` as a number. -/
theorem extractByte_toNat {w : Nat} (v : BitVec w) (k : Nat) :
    (v.extractLsb' (8 * k) 8).toNat = v.toNat / 2 ^ (8 * k) % 256 := by
  rw [BitVec.extractLsb'_toNat, Nat.shiftRight_eq_div_pow]

theorem imageBytes_getElem?_toNat {w n k : Nat} (v : BitVec w) (hk : k < n) :
    ((imageBytes n v)[k]?).map BitVec.toNat = some (v.toNat / 2 ^ (8 * k) % 256) := by
  have hbyte : (imageBytes n v)[k]? = some (v.extractLsb' (8 * k) 8) := by simp [imageBytes, hk]
  rw [hbyte, Option.map_some, extractByte_toNat]

theorem imageBytes_succ {w : Nat} (n : Nat) (v : BitVec w) :
    imageBytes (n + 1) v = imageBytes n v ++ [v.extractLsb' (8 * n) 8] := by
  simp [imageBytes, List.range_succ]

theorem imageBytes_one (v : U8) : imageBytes 1 v = [v] := by
  simp [imageBytes]

/-- The low field of a word, when it is whole bytes, comes first. -/
theorem imageBytes_append {p q m : Nat} (hq : q = 8 * m) (n : Nat) (x : BitVec p) (y : BitVec q) :
    imageBytes (m + n) (x ++ y) = imageBytes m y ++ imageBytes n x := by
  subst hq
  have hlow : ∀ k ∈ List.range m, (x ++ y).extractLsb' (8 * k) 8 = y.extractLsb' (8 * k) 8 := by
    intro k hk
    have := List.mem_range.mp hk
    exact BitVec.extractLsb'_append_eq_of_add_le (by omega)
  have hhigh : ∀ k, (x ++ y).extractLsb' (8 * (m + k)) 8 = x.extractLsb' (8 * k) 8 := by
    intro k
    rw [BitVec.extractLsb'_append_eq_of_le (by omega), Nat.mul_add, Nat.add_sub_cancel_left]
  simp only [imageBytes, List.range_add, List.map_append, List.map_map, Function.comp_def, hhigh,
    List.map_congr_left hlow]

theorem commandImage_fields (opc : U8) (a b : U128) :
    commandImage (opc ++ a ++ b) = u128Image b ++ u128Image a ++ [opc] := by
  calc imageBytes (16 + 17) (opc ++ a ++ b)
      = imageBytes 16 b ++ imageBytes (16 + 1) (opc ++ a) := imageBytes_append (m := 16) rfl 17 (opc ++ a) b
    _ = imageBytes 16 b ++ (imageBytes 16 a ++ [opc]) := by
      rw [imageBytes_append (m := 16) rfl 1 opc a, imageBytes_one]
    _ = imageBytes 16 b ++ imageBytes 16 a ++ [opc] := (List.append_assoc _ _ _).symm

theorem responseImage_fields (st : U8) (data : U256) : responseImage (st ++ data) = imageBytes 32 data ++ [st] := by
  calc imageBytes (32 + 1) (st ++ data)
      = imageBytes 32 data ++ imageBytes 1 st := imageBytes_append (m := 32) rfl 1 st data
    _ = imageBytes 32 data ++ [st] := by rw [imageBytes_one]

theorem responseImage_data_getElem?_toNat {k : Nat} (st : U8) (data : U256) (hk : k < 32) :
    ((responseImage (st ++ data))[k]?).map BitVec.toNat = some (data.toNat / 2 ^ (8 * k) % 256) := by
  rw [responseImage_fields, List.getElem?_append_left (by simpa using hk), imageBytes_getElem?_toNat data hk]

theorem saveImage_take (state inc : U128) : (saveImage state inc).take 16 = u128Image state :=
  List.take_left' (imageBytes_length 16 state)

theorem saveImage_drop (state inc : U128) : (saveImage state inc).drop 16 = u128Image inc :=
  List.drop_left' (imageBytes_length 16 state)

theorem saveImage_length (state inc : U128) : (saveImage state inc).length = 32 := by
  simp [saveImage, u128Image]

/-! Reading an image back (20_memory.md rule R26; 43_state_access.md rule R55). -/

theorem ofImage_append (l l' : List U8) : ofImage (l ++ l') = ofImage l + 256 ^ l.length * ofImage l' := by
  induction l with
  | nil => simp [ofImage]
  | cons b l ih =>
    rw [List.cons_append, ofImage, ofImage, ih, List.length_cons, pow_succ']
    ring

/-- The bytes of a value are its base 256 digits. -/
theorem ofImage_imageBytes {w : Nat} (n : Nat) (v : BitVec w) : ofImage (imageBytes n v) = v.toNat % 256 ^ n := by
  induction n with
  | zero => simp [imageBytes, ofImage, Nat.mod_one]
  | succ n ih =>
    have hbyte : ofImage [v.extractLsb' (8 * n) 8] = v.toNat / 256 ^ n % 256 := by
      simp [ofImage, extractByte_toNat, pow_mul, -BitVec.extractLsb'_toNat]
    rw [imageBytes_succ, ofImage_append, ih, imageBytes_length, hbyte, Nat.mod_pow_succ]

theorem ofImage_u128Image (v : U128) : BitVec.ofNat 128 (ofImage (u128Image v)) = v := by
  apply BitVec.eq_of_toNat_eq
  rw [u128Image, ofImage_imageBytes, BitVec.toNat_ofNat]
  omega

theorem loadOfSaveImage_saveImage (state inc : U128) :
    loadOfSaveImage (saveImage state inc) = some (.load state inc) := by
  rw [loadOfSaveImage, if_pos (saveImage_length state inc), saveImage_take, saveImage_drop, ofImage_u128Image,
    ofImage_u128Image]

/-- The halves of a SAVE response's data are the pair. -/
theorem saveImageOfResponse_pair (st : U8) (state inc : U128) :
    saveImageOfResponse (commandWord st state inc) = saveImage state inc := by
  rw [← responseWord_pair, saveImageOfResponse, responseWord_data, dataOfPair, BitVec.extractLsb'_append_eq_left,
    BitVec.extractLsb'_append_eq_right]

/-- Settles O43: each image is the images of its word's fields, low field first, and the bytes of a value are its base
256 digits. -/
theorem byteImagesAreLittleEndian : Obligations.ByteImagesAreLittleEndian := by
  refine ⟨fun v => ⟨imageBytes_length 16 v, fun k => imageBytes_getElem?_toNat v⟩,
    fun s i => ⟨saveImage_length s i, saveImage_take s i, saveImage_drop s i⟩, commandImage_fields,
    fun st data => ⟨imageBytes_length 33 (st ++ data), ?status, fun k => responseImage_data_getElem?_toNat st data⟩,
    fun word k hk => ?word, fun s i => ⟨saveImageOfResponse_pair 0x00#8 s i, loadOfSaveImage_saveImage s i⟩⟩
  case status => simp [responseImage_fields]
  case word =>
    have hzext : (word.setWidth 256).toNat = word.toNat := zext256_toNat word
    rw [responseImage_data_getElem?_toNat _ _ (by omega), hzext]

end Sys2Proof.Machine
end

section
/-! PROOF. The decoder on the word of each opcode, with any operands (30_encoding.md rules R32, R34, R35). -/

namespace Sys2Proof.Machine

section
variable (a b : U128)

@[simp] theorem decode_commandWord_adv : decode (commandWord 0x01#8 a b) = .command .adv := by simp [decode]
@[simp] theorem decode_commandWord_perm : decode (commandWord 0x02#8 a b) = .command (.perm a) := by simp [decode]
@[simp] theorem decode_commandWord_next : decode (commandWord 0x03#8 a b) = .command .next := by simp [decode]
@[simp] theorem decode_commandWord_seed : decode (commandWord 0x04#8 a b) = .command (.seed a) := by simp [decode]
@[simp] theorem decode_commandWord_seeds : decode (commandWord 0x05#8 a b) = .command (.seeds a b) := by simp [decode]
@[simp] theorem decode_commandWord_load : decode (commandWord 0x06#8 a b) = .command (.load a b) := by simp [decode]
@[simp] theorem decode_commandWord_save : decode (commandWord 0x07#8 a b) = .command .save := by simp [decode]

end

/-- The reserved opcodes are the values that no command has (R34). -/
theorem decode_eq_illegal_iff (cw : CommandWord) :
    decode cw = .illegal ↔ cw.opc.toNat = 0 ∨ 8 ≤ cw.opc.toNat := by
  refine ⟨opc_of_decode_illegal, fun h => ?_⟩
  cases hd : decode cw with
  | illegal => rfl
  | command i =>
    rw [opc_of_decode_command hd] at h
    cases i <;> simp [Instr.opcode] at h

theorem decode_commandWord_eq_illegal_iff (opc : U8) (a b : U128) :
    decode (commandWord opc a b) = .illegal ↔ opc.toNat = 0 ∨ 8 ≤ opc.toNat := by
  rw [decode_eq_illegal_iff, commandWord_opc]

/-- The opcode map, row by row. -/
theorem decode_commandWord (opc : U8) (a b : U128) :
    decode (commandWord opc a b) =
      if opc = 0x01#8 then .command .adv
      else if opc = 0x02#8 then .command (.perm a)
      else if opc = 0x03#8 then .command .next
      else if opc = 0x04#8 then .command (.seed a)
      else if opc = 0x05#8 then .command (.seeds a b)
      else if opc = 0x06#8 then .command (.load a b)
      else if opc = 0x07#8 then .command .save
      else .illegal := by
  split_ifs
  case neg =>
    rw [decode_commandWord_eq_illegal_iff]
    bv_omega
  all_goals
    subst opc
    simp

/-- Settles O2: the decoder row by row of the map, and the fields of a word by their bits. -/
theorem decodeIsTheOpcodeMap : Obligations.DecodeIsTheOpcodeMap :=
  ⟨decode_commandWord, fun cw : CommandWord => ⟨cw.opc, cw.a, cw.b, (commandWord_fields cw).symm,
    cw.opc_toNat, cw.a_toNat, cw.b_toNat⟩⟩

end Sys2Proof.Machine
end

section
/-! PROOF. A step sees of a command word only what it decodes to, and the assembler writes only canonical words
(30_encoding.md rules R33, R36). -/

namespace Sys2Proof.Machine

theorem Engine.stepWord_congr {cw cw' : CommandWord} (h : decode cw = decode cw') (e : Engine) :
    e.stepWord cw = e.stepWord cw' := by
  simp only [Engine.stepWord, h]

theorem step_command_congr {cw cw' : CommandWord} (h : decode cw = decode cw') (s : State) (rest : List HostEvent) :
    step { s with pending := .command cw :: rest } = step { s with pending := .command cw' :: rest } := by
  rw [step_of_command rfl, step_of_command rfl, Engine.stepWord_congr h]

/-- Two words of one command are the same step, and not an error. -/
theorem step_eq_and_not_illegal {cw cw' : CommandWord} {i : Instr} (h : decode cw = .command i)
    (h' : decode cw' = .command i) (s : State) (rest : List HostEvent) :
    step { s with pending := .command cw :: rest } = step { s with pending := .command cw' :: rest } ∧
      decode cw ≠ .illegal :=
  ⟨step_command_congr (h.trans h'.symm) s rest, by simp [h]⟩

/-- A line that assembles to a word assembles to the canonical word of a command. -/
theorem exists_encode_of_assembleLine {line : List Char} {cw : CommandWord}
    (h : assembleLine line = some [.command cw]) : ∃ i, cw = encode i := by
  unfold assembleLine at h
  split at h
  · simp at h
  · simp at h
  · obtain ⟨i, _, hi⟩ := Option.map_eq_some_iff.mp h
    exact ⟨i, by simpa using hi.symm⟩

/-- Settles O5: words that differ in ignored fields decode to the same command. -/
theorem unusedOperandFieldsAreIgnored : Obligations.UnusedOperandFieldsAreIgnored := by
  refine ⟨fun s rest opc a b a' b' hopc => ?noOperand, fun s rest opc a b b' hopc => ?onlyA, rfl, rfl, rfl,
    fun a => ⟨rfl, rfl⟩, fun _ _ => exists_encode_of_assembleLine⟩
  case noOperand =>
    rcases hopc with rfl | rfl | rfl
    · exact step_eq_and_not_illegal (decode_commandWord_adv a b) (decode_commandWord_adv a' b') s rest
    · exact step_eq_and_not_illegal (decode_commandWord_next a b) (decode_commandWord_next a' b') s rest
    · exact step_eq_and_not_illegal (decode_commandWord_save a b) (decode_commandWord_save a' b') s rest
  case onlyA =>
    rcases hopc with rfl | rfl
    · exact step_eq_and_not_illegal (decode_commandWord_perm a b) (decode_commandWord_perm a b') s rest
    · exact step_eq_and_not_illegal (decode_commandWord_seed a b) (decode_commandWord_seed a b') s rest

end Sys2Proof.Machine
end

section
/-! PROOF. A reserved opcode is answered Illegal and changes no register (30_encoding.md rule R34). -/

namespace Sys2Proof.Machine

theorem step_of_illegal {s : State} {cw : CommandWord} {rest : List HostEvent} (h : s.pending = .command cw :: rest)
    (hd : decode cw = .illegal) :
    step s = .next { s with pending := rest, responses := s.responses ++ [errorWord .illegal] } := by
  rw [step_of_command h, Engine.stepWord_of_illegal hd]

theorem decode_ofNat_eq_illegal_iff {n : Nat} (hn : n < 256) (a b : U128) :
    decode (commandWord (BitVec.ofNat 8 n) a b) = .illegal ↔ n = 0 ∨ 8 ≤ n := by
  rw [decode_commandWord_eq_illegal_iff, BitVec.toNat_ofNat, Nat.mod_eq_of_lt hn]

/-- Of the numbers below 256 one below 8 is reserved, and all 248 from 8 on. -/
theorem length_filter_reserved : ((List.range (8 + 248)).filter fun n => decide (n = 0 ∨ 8 ≤ n)).length = 249 := by
  have hlow : ((List.range 8).filter fun n => decide (n = 0 ∨ 8 ≤ n)) = [0] := by decide
  have hhigh : ∀ n ∈ (List.range 248).map (8 + ·), decide (n = 0 ∨ 8 ≤ n) = true := by simp
  rw [List.range_add, List.filter_append, hlow, List.filter_eq_self.mpr hhigh, List.length_append, List.length_map,
    List.length_range, List.length_singleton]

/-- Settles O6: the decoder answers Illegal, which the step turns into the error response alone; the count is of the
numbers that are 0 or at least 8. -/
theorem reservedOpcodesAnswerIllegal : Obligations.ReservedOpcodesAnswerIllegal := by
  refine ⟨fun s rest opc a b hopc =>
    step_of_illegal rfl ((decode_commandWord_eq_illegal_iff opc a b).mpr hopc), ?count⟩
  case count =>
    have hreserved : ∀ n ∈ List.range 256,
        decide (decode (commandWord (BitVec.ofNat 8 n) 0#128 0#128) = .illegal) = decide (n = 0 ∨ 8 ≤ n) :=
      fun n hn => decide_eq_decide.mpr (decode_ofNat_eq_illegal_iff (List.mem_range.mp hn) 0#128 0#128)
    exact (congrArg List.length (List.filter_congr hreserved)).trans length_filter_reserved

end Sys2Proof.Machine
end

section
/-! PROOF. StateAdvance as an affine map of the 128-bit values, its value and its inverse (40_state_advance.md rules R40,
R41). -/

namespace Sys2Proof.Machine

theorem stateAdvance_eq_mul_add (s i : U128) : stateAdvance s i = s * 0xda942042e4dd58b5#128 + i :=
  congrArg (· + i) (mul_comm (zext128 multiplier) s)

theorem stateAdvance_toNat (s i : U128) :
    (stateAdvance s i).toNat = (s.toNat * 0xda942042e4dd58b5 + i.toNat) % 2 ^ 128 := by
  rw [stateAdvance_eq_mul_add, BitVec.toNat_add, BitVec.toNat_mul, Nat.mod_add_mod]
  rfl

/-- The limb formula of R40: the carry out of the low limbs is the quotient that the high limbs take up. -/
theorem stateAdvance_append_toNat (sh sl ih il : U64) :
    let p := sl.toNat * 0xda942042e4dd58b5
    let c := if 2 ^ 64 ≤ p % 2 ^ 64 + il.toNat then 1 else 0
    let lo := (p % 2 ^ 64 + il.toNat) % 2 ^ 64
    let hi := (p / 2 ^ 64 + sh.toNat * 0xda942042e4dd58b5 % 2 ^ 64 + ih.toNat + c) % 2 ^ 64
    (stateAdvance (sh ++ sl) (ih ++ il)).toNat = hi * 2 ^ 64 + lo := by
  intro p c lo hi
  have hc : c = (p % 2 ^ 64 + il.toNat) / 2 ^ 64 := by
    simp only [c]
    split <;> omega
  rw [stateAdvance_toNat, append_toNat, append_toNat]
  omega

theorem exec_adv_inc {s t : State} (h : exec .adv s = .next t) : t.engine.inc = s.engine.inc := by
  rw [exec_eq_answer, Host.Outcome.next.injEq] at h
  subst h
  exact Engine.answer_inc rfl s.engine

/-- Settles O20: the value of the affine map, the same value in limbs, and the frame of ADV. -/
theorem stateAdvanceIsExact : Obligations.StateAdvanceIsExact :=
  ⟨stateAdvance_toNat, stateAdvance_append_toNat, fun _ _ => exec_adv_inc⟩

/-- The inverse of the odd constant `M` modulo 2^128 (R41 (a)). -/
def multiplierInverse : U128 := 0xcd365d2cb1a6a6c8b838d0354ead59d#128

theorem multiplierInverse_mul : multiplierInverse * 0xda942042e4dd58b5#128 = 1 := rfl

/-- One step back: the state from which StateAdvance leads to `v`. -/
def stateRetreat (v i : U128) : U128 := (v - i) * multiplierInverse

theorem stateRetreat_stateAdvance (s i : U128) : stateRetreat (stateAdvance s i) i = s := by
  rw [stateRetreat, stateAdvance_eq_mul_add, add_sub_cancel_right, mul_assoc,
    mul_comm _ multiplierInverse, multiplierInverse_mul, mul_one]

theorem stateAdvance_stateRetreat (v i : U128) : stateAdvance (stateRetreat v i) i = v := by
  rw [stateAdvance_eq_mul_add, stateRetreat, mul_assoc, multiplierInverse_mul, mul_one, sub_add_cancel]

theorem stateAdvance_bijective (i : U128) : Function.Bijective fun s => stateAdvance s i :=
  Function.bijective_iff_has_inverse.mpr
    ⟨fun v => stateRetreat v i, fun s => stateRetreat_stateAdvance s i, fun v => stateAdvance_stateRetreat v i⟩

@[simp] theorem stateAdvance_zero (i : U128) : stateAdvance 0#128 i = i := by
  rw [stateAdvance_eq_mul_add, BitVec.zero_mul, BitVec.zero_add]

/-- All ones is -1 modulo 2^128. -/
theorem stateAdvance_allOnes (i : U128) :
    stateAdvance (BitVec.allOnes 128) i = i - 0xda942042e4dd58b5#128 := by
  rw [stateAdvance_eq_mul_add, ← BitVec.neg_one_eq_allOnes, BitVec.neg_mul, BitVec.one_mul, neg_add_eq_sub]

theorem getLsbD_zero_eq_decide {w : Nat} (v : BitVec w) : v.getLsbD 0 = decide (v.toNat % 2 = 1) :=
  Nat.testBit_zero v.toNat

/-- `M` is odd and nothing is carried into bit 0, where a sum is an exclusive or. -/
theorem stateAdvance_getLsbD_zero (s i : U128) :
    (stateAdvance s i).getLsbD 0 = (s.getLsbD 0 ^^ i.getLsbD 0) := by
  have hlow : (stateAdvance s i).toNat % 2 = (s.toNat + i.toNat) % 2 := by
    rw [stateAdvance_toNat]
    omega
  rw [← BitVec.getLsbD_xor, getLsbD_zero_eq_decide, getLsbD_zero_eq_decide, BitVec.toNat_xor, Nat.xor_mod_two_eq, hlow]

/-- Settles O22: StateAdvance is the affine map `s * M + i`, which `stateRetreat` inverts. -/
theorem stateAdvanceProperties : Obligations.StateAdvanceProperties :=
  ⟨stateAdvance_bijective, stateAdvance_zero, stateAdvance_allOnes, stateAdvance_getLsbD_zero,
    fun s i hi => by rw [stateAdvance_getLsbD_zero, hi, Bool.xor_true], stateAdvance_zero 0#128⟩

end Sys2Proof.Machine
end

section
/-! PROOF. The machine runs a list of command words as the spec's fold does (70_reset_and_hazards.md rule R72), and ADV is
NEXT without the word (40_state_advance.md rule R42). -/

namespace Sys2Proof.Machine

/-- As many steps as there are words take them, and leave what the host does after them. -/
theorem core_run_commands (cws : List CommandWord) (s : State) (rest : List HostEvent) :
    core.run cws.length { s with pending := cws.map .command ++ rest } = .next { s with
      pending := rest
      engine := (s.engine.run cws).1
      responses := s.responses ++ (s.engine.run cws).2 } := by
  induction cws generalizing s with
  | nil => simp [core_run_zero, Engine.run]
  | cons cw cws ih =>
    rw [List.length_cons, core_run_succ _ (step_of_command rfl)]
    simpa [Engine.run] using ih { s with
      engine := (s.engine.stepWord cw).1
      responses := s.responses ++ [(s.engine.stepWord cw).2] }

theorem core_run_replicate (n : Nat) (cw : CommandWord) (s : State) :
    core.run n { s with pending := List.replicate n (.command cw) } = .next { s with
      pending := []
      engine := (s.engine.run (List.replicate n cw)).1
      responses := s.responses ++ (s.engine.run (List.replicate n cw)).2 } := by
  simpa using core_run_commands (List.replicate n cw) s []

theorem Engine.answer_adv_registers (e : Engine) : (e.answer .adv).1 = (e.answer .next).1 := by
  cases h : e.valid <;> simp [Engine.answer, nextWord, h]

theorem Engine.run_replicate_adv_registers (n : Nat) (e : Engine) :
    (e.run (List.replicate n (encode .adv))).1 = (e.run (List.replicate n (encode .next))).1 := by
  induction n generalizing e with
  | zero => rfl
  | succ n ih =>
    simp only [List.replicate_succ, Engine.run, Engine.stepWord_of_command (decode_encode _),
      Engine.answer_adv_registers, ih]

theorem exec_adv_of_valid {s : State} (hs : s.engine.valid = true) :
    exec .adv s = .next (s.complete (s.engine.writeState (stateAdvance s.engine.state s.engine.inc)) noData) :=
  congrArg Host.Outcome.next (State.whenCreated_of_valid _ hs)

/-- Settles O13: ADV by the two cases of `valid`, its word by the decoder, and `n` ADVs by induction on `n` over the
registers. -/
theorem advFollowsItsRule : Obligations.AdvFollowsItsRule :=
  ⟨fun s hs => ⟨_, stateAdvance_toNat s.engine.state s.engine.inc, exec_adv_of_valid hs⟩,
    fun _ hs => exec_of_unseeded rfl hs,
    decode_commandWord_adv, rfl, rfl, rfl, stateAdvance_zero, fun _ _ => rfl,
    fun s n => ⟨_, _, core_run_replicate n _ s, core_run_replicate n _ s, Engine.run_replicate_adv_registers n _⟩⟩

end Sys2Proof.Machine
end

section
/-! PROOF. OutputPermute: its value, and the map of the high half for a fixed low half (41_output_permute.md rules R45,
R46). -/

namespace Sys2Proof.Machine

/-! The seven steps on naturals. -/

theorem xorShift_toNat (hi : U64) (k : Nat) : (xorShift hi k).toNat = hi.toNat ^^^ hi.toNat / 2 ^ k := by
  rw [xorShift, xor64_toNat, shr64_toNat]

/-- Steps 3 to 5 of OutputPermute, which work on the high half alone. -/
def permuteHigh (hi : U64) : U64 := xorShift (mul64 (xorShift hi 32) multiplier) 48

/-- OutputPermute keeps the two halves apart until the last step multiplies them. -/
theorem outputPermute_eq (v : U128) : outputPermute v = mul64 (permuteHigh (hi64 v)) (or64 (lo64 v) 1#64) := rfl

/-- Settles O23: each step by the value of its primitive. -/
theorem outputPermuteIsTheSevenSteps : Obligations.OutputPermuteIsTheSevenSteps := by
  intro v hi1 lo1 lo2 hi3 hi4 hi5
  have hhi4 : (mul64 (xorShift (hi64 v) 32) multiplier).toNat = hi4 := by
    rw [mul64_toNat, xorShift_toNat, hi64_toNat]
    rfl
  have hhi5 : (permuteHigh (hi64 v)).toNat = hi5 := by rw [permuteHigh, xorShift_toNat, hhi4]
  have hlo2 : (or64 (lo64 v) 1#64).toNat = lo2 := by
    rw [or64_toNat, lo64_toNat]
    rfl
  rw [outputPermute_eq, mul64_toNat, hhi5, hlo2]

/-! Particular halves. -/

theorem permuteHigh_eq (hi : U64) :
    permuteHigh hi =
      (hi ^^^ (hi >>> 32)) * 0xda942042e4dd58b5#64 ^^^ (((hi ^^^ (hi >>> 32)) * 0xda942042e4dd58b5#64) >>> 48) := by
  rw [BitVec.mul_comm _ 0xda942042e4dd58b5#64]
  rfl

theorem outputPermute_append (hi lo : U64) : outputPermute (hi ++ lo) = mul64 (permuteHigh hi) (or64 lo 1#64) := by
  rw [outputPermute_eq, hi64_append, lo64_append]

/-- Steps 3 to 5 keep a zero high half zero, and it absorbs the low half. -/
theorem outputPermute_of_hi64_eq_zero {v : U128} (h : hi64 v = 0#64) : outputPermute v = 0#64 := by
  have hhigh : permuteHigh 0#64 = 0#64 := rfl
  rw [outputPermute_eq, h, hhigh, mul64, BitVec.mul_zero]

theorem outputPermute_of_lt {v : U128} (h : v.toNat < 2 ^ 64) : outputPermute v = 0#64 := by
  apply outputPermute_of_hi64_eq_zero
  apply BitVec.eq_of_toNat_eq
  rw [hi64_toNat, Nat.div_eq_of_lt h]
  rfl

/-- A low half of 0 or 1 is 1 after step 2, so the last multiplication does nothing. -/
theorem outputPermute_append_of_low_le_one {lo : U64} (h : lo = 0#64 ∨ lo = 1#64) (hi : U64) :
    outputPermute (hi ++ lo) = permuteHigh hi := by
  have hlo : or64 lo 1#64 = 1#64 := by rcases h with rfl | rfl <;> rfl
  rw [outputPermute_append, hlo, mul64, BitVec.one_mul]

/-- Step 2 sets bit 0, whatever it was. -/
theorem or64_xor_one (lo : U64) : or64 (lo ^^^ 1#64) 1#64 = or64 lo 1#64 := by
  ext k
  simp only [or64, BitVec.getElem_or, BitVec.getElem_xor]
  cases lo[k] <;> cases (1#64)[k] <;> rfl

theorem outputPermute_xor_one (v : U128) : outputPermute (v ^^^ 1#128) = outputPermute v := by
  have hhi : hi64 (v ^^^ 1#128) = hi64 v := BitVec.extractLsb'_xor.trans BitVec.xor_zero
  have hlo : lo64 (v ^^^ 1#128) = lo64 v ^^^ 1#64 := BitVec.extractLsb'_xor
  rw [outputPermute_eq, outputPermute_eq, hhi, hlo, or64_xor_one]

/-! Each step on the high half is a bijection of the 64-bit values. -/

/-- A shift by at least half the width, done twice, leaves nothing, so the exclusive or undoes itself. -/
theorem xorShift_involutive {k : Nat} (hk : 64 ≤ k + k) : Function.Involutive fun hi => xorShift hi k := by
  intro hi
  have hgone : hi >>> k >>> k = 0#64 := by rw [← BitVec.shiftRight_add, BitVec.ushiftRight_eq_zero hk]
  calc (hi ^^^ hi >>> k) ^^^ (hi ^^^ hi >>> k) >>> k
      = (hi ^^^ hi >>> k) ^^^ hi >>> k := by rw [BitVec.ushiftRight_xor_distrib, hgone, BitVec.xor_zero]
    _ = hi := by rw [BitVec.xor_assoc, BitVec.xor_self, BitVec.xor_zero]

/-- An odd factor can be cancelled modulo `2 ^ w`. -/
theorem bitVec_mul_injective_of_odd {w : Nat} {m : BitVec w} (hm : Odd m.toNat) :
    Function.Injective fun x : BitVec w => m * x := by
  intro x y h
  have hmod : m.toNat * x.toNat ≡ m.toNat * y.toNat [MOD 2 ^ w] := by
    simpa only [Nat.ModEq, BitVec.toNat_mul] using congrArg BitVec.toNat h
  have hcop : Nat.Coprime (2 ^ w) m.toNat := (Nat.coprime_two_left.mpr hm).pow_left w
  exact BitVec.eq_of_toNat_eq ((hmod.cancel_left_of_coprime hcop).eq_of_lt_of_lt x.isLt y.isLt)

theorem mul64_bijective_of_odd {m : U64} (hm : Odd m.toNat) : Function.Bijective fun hi => mul64 hi m :=
  have : Finite U64 := Finite.of_injective BitVec.toFin BitVec.toFin_injective
  (bitVec_mul_injective_of_odd hm).bijective_of_finite

theorem permuteHigh_bijective : Function.Bijective permuteHigh :=
  have hmul : Function.Bijective fun hi => mul64 hi multiplier := mul64_bijective_of_odd (by decide)
  (xorShift_involutive (by decide)).bijective.comp (hmul.comp (xorShift_involutive (by decide)).bijective)

theorem odd_or64_one (lo : U64) : Odd (or64 lo 1#64).toNat := by
  rw [or64_toNat, Nat.odd_iff, Nat.or_mod_two_eq_one]
  exact .inr rfl

theorem outputPermute_append_bijective (lo : U64) : Function.Bijective fun hi : U64 => outputPermute (hi ++ lo) := by
  simp only [outputPermute_append]
  exact (mul64_bijective_of_odd (odd_or64_one lo)).comp permuteHigh_bijective

/-- Settles O24: PERM by its pseudocode over the registers, the rest by the two halves of OutputPermute. -/
theorem outputPermuteProperties : Obligations.OutputPermuteProperties := by
  refine ⟨fun e e' v => ?perm, outputPermute_xor_one,
    fun lo => outputPermute_of_hi64_eq_zero (hi64_append 0#64 lo), fun hi lo hlo => ?low, outputPermute_append_bijective⟩
  case perm =>
    rw [Engine.run_encode, Engine.run_encode]
    exact ⟨rfl, rfl⟩
  case low => rw [outputPermute_append_of_low_le_one hlo, permuteHigh_eq]

end Sys2Proof.Machine
end

section
/-! PROOF. PERM and NEXT on the machine and over the registers, and a run of NEXTs (41_output_permute.md rules R47 to
R49). -/

namespace Sys2Proof.Machine

/-- The response of PERM and NEXT to a word. -/
def wordResponse (w : U64) : ResponseWord := responseWord statusOk (dataOfWord w)

theorem Engine.answer_perm (e : Engine) (v : U128) : e.answer (.perm v) = (e, wordResponse (outputPermute v)) := rfl

theorem Engine.answer_next_of_valid {e : Engine} (he : e.valid = true) :
    e.answer .next = (⟨stateAdvance e.state e.inc, e.inc, true⟩, wordResponse (outputPermute e.state)) := if_pos he

theorem exec_next_of_valid {s : State} (hs : s.engine.valid = true) :
    exec .next s = .next (s.complete (s.engine.writeState (stateAdvance s.engine.state s.engine.inc))
      (dataOfWord (outputPermute s.engine.state))) :=
  congrArg Host.Outcome.next (State.whenCreated_of_valid _ hs)

/-- A command's own word first, then the rest. -/
theorem Engine.run_encode_cons (e : Engine) (i : Instr) (cws : List CommandWord) :
    e.run (encode i :: cws) = (((e.answer i).1.run cws).1, (e.answer i).2 :: ((e.answer i).1.run cws).2) := by
  simp only [Engine.run, Engine.stepWord_of_command (decode_encode i)]

/-- Settles O14: PERM as its pseudocode, which leaves the registers to the next command as they are; its word by the
decoder. -/
theorem permFollowsItsRule : Obligations.PermFollowsItsRule := by
  refine ⟨fun _ _ => rfl, decode_commandWord_perm, fun _ => rfl, fun _ => outputPermute_of_lt, outputPermute_xor_one,
    rfl, rfl, fun e v => ?betweenNexts, fun e he => ?currentState⟩
  case betweenNexts => simp only [Engine.run_encode_cons, Engine.answer_perm, List.getElem?_cons_succ]
  case currentState =>
    rw [Engine.run_encode, Engine.run_encode, Engine.answer_perm, Engine.answer_next_of_valid he]

/-- The state register after `n` advances with the increment `i`. -/
def stateAfter (s i : U128) (n : Nat) : U128 := (fun x => stateAdvance x i)^[n] s

/-- Each NEXT of a run answers the word of the state that the NEXTs before it left. -/
theorem Engine.run_replicate_next (s i : U128) (n : Nat) :
    Engine.run ⟨s, i, true⟩ (List.replicate n (encode .next)) =
      (⟨stateAfter s i n, i, true⟩, (List.range n).map fun k => wordResponse (outputPermute (stateAfter s i k))) := by
  induction n generalizing s with
  | zero => rfl
  | succ n ih =>
    rw [List.replicate_succ, Engine.run_encode_cons, Engine.answer_next_of_valid rfl, ih, List.range_succ_eq_map,
      List.map_cons, List.map_map]
    rfl

theorem stateAfter_zero_zero (n : Nat) : stateAfter 0#128 0#128 n = 0#128 :=
  Function.iterate_fixed (f := fun x => stateAdvance x 0#128) (stateAdvance_zero 0#128) n

/-- The one engine that answers zeros for ever (R49). -/
theorem Engine.run_replicate_next_of_zero (n : Nat) :
    Engine.run ⟨0#128, 0#128, true⟩ (List.replicate n (encode .next)) =
      (⟨0#128, 0#128, true⟩, List.replicate n (wordResponse 0#64)) := by
  have hword : outputPermute 0#128 = 0#64 := outputPermute_of_lt (by decide)
  simp only [Engine.run_replicate_next, stateAfter_zero_zero, hword, List.map_const', List.length_range]

/-- NEXT answers what PERM of the current state answers, and leaves what ADV leaves. -/
theorem Engine.run_perm_adv_of_valid {e : Engine} (he : e.valid = true) :
    e.run [encode (.perm e.state), encode .adv] =
      ((e.run [encode .next]).1, [wordResponse (outputPermute e.state), responseWord statusOk noData]) := by
  rw [Engine.run_encode_cons, Engine.answer_perm, Engine.run_encode, Engine.run_encode, Engine.answer_adv_registers,
    Engine.answer, if_pos he]

/-- Settles O15: NEXT by the two cases of `valid`, its word by the decoder, the fixed point by the run of NEXTs. -/
theorem nextFollowsItsRule : Obligations.NextFollowsItsRule := by
  refine ⟨fun s hs => ⟨_, stateAdvance_toNat s.engine.state s.engine.inc, exec_next_of_valid hs⟩,
    fun _ hs => exec_of_unseeded rfl hs, decode_commandWord_next, rfl, fun _ => outputPermute_of_lt,
    Engine.run_replicate_next_of_zero, fun e he => ⟨_, ?next, Engine.run_perm_adv_of_valid he⟩, ?worked⟩
  case next => rw [Engine.run_encode, Engine.answer_next_of_valid he]
  case worked =>
    have hstate : stateAdvance 0x5851f42d4c957f2d14057b7ef767814f#128 0x5851f42d4c957f2d14057b7ef767814f#128 =
        0x7110175022adf5438fd26b32753c162a#128 := rfl
    have hword : outputPermute 0x5851f42d4c957f2d14057b7ef767814f#128 = 0x38ffff682123e08a#64 := rfl
    have hresponse : wordResponse 0x38ffff682123e08a#64 = 0x38ffff682123e08a#264 := by
      simp [wordResponse, responseWord, statusOk, dataOfWord, zext256]
    simp only [Engine.run_encode, Engine.answer_next_of_valid, hstate, hword, hresponse]

/-- Settles O25: NextWord by its definition, the `n`-th word by the run of NEXTs, the first word after SEEDS by the pair
that SEEDS leaves. -/
theorem wordsComeFromPreAdvanceStates : Obligations.WordsComeFromPreAdvanceStates := by
  refine ⟨fun _ _ => rfl, fun e n he => ?nth, fun e seed selector => ?first⟩
  case nth =>
    obtain ⟨s, i, v⟩ := e
    obtain rfl : v = true := he
    rw [Engine.run_replicate_next, List.getElem?_map, List.getElem?_range n.lt_succ_self]
    rfl
  case first =>
    rw [Engine.run_encode_cons, Engine.run_encode]
    rfl

end Sys2Proof.Machine
end

section
/-! PROOF. The increment of a selector (42_stream_seed.md rule R50). -/

namespace Sys2Proof.Machine

theorem incOf_zero : incOf 0#128 = 0x5851f42d4c957f2d14057b7ef767814f#128 := rfl

theorem incOf_one : incOf 1#128 = 3#128 := rfl

theorem incOf_of_ne_zero {b : U128} (h : b ≠ 0#128) : incOf b = or128 (shl128By1 b) 1#128 := if_neg h

theorem incOf_toNat_or (b : U128) :
    (incOf b).toNat = if b.toNat = 0 then 0x5851f42d4c957f2d14057b7ef767814f else 2 * b.toNat % 2 ^ 128 ||| 1 := by
  by_cases h : b = 0#128
  · rw [h, incOf_zero]
    rfl
  · have hb : b.toNat ≠ 0 := fun h0 => h (BitVec.eq_of_toNat_eq h0)
    rw [incOf_of_ne_zero h, if_neg hb, or128_toNat, shl128By1_toNat]
    rfl

/-- The shift leaves bit 0 clear, so forcing it to 1 adds 1. -/
theorem two_mul_mod_or_one (n : Nat) : 2 * n % 2 ^ 128 ||| 1 = 2 * n % 2 ^ 128 + 1 := by
  have heven : 2 * n % 2 ^ 128 = 2 ^ 1 * (n % 2 ^ 127) := Nat.mul_mod_mul_left 2 n (2 ^ 127)
  rw [heven, Nat.two_pow_add_eq_or_of_lt (by decide)]

theorem incOf_toNat (b : U128) :
    (incOf b).toNat = if b.toNat = 0 then 0x5851f42d4c957f2d14057b7ef767814f else 2 * b.toNat % 2 ^ 128 + 1 := by
  rw [incOf_toNat_or, two_mul_mod_or_one]

/-- The default increment is odd, and the other increments have bit 0 forced to 1. -/
theorem incOf_odd (b : U128) : (incOf b).toNat % 2 = 1 := by
  rw [incOf_toNat]
  split <;> omega

/-- Settles O26: the two cases of the selector, and the oddness of each. -/
theorem incOfIsTheDerivation : Obligations.IncOfIsTheDerivation :=
  fun selector => ⟨incOf_toNat_or selector, incOf_odd selector⟩

/-- Bit 127 of a selector is lost in the shift, unless it decides whether the selector is zero (R53). -/
theorem incOf_add_top_bit {b : U128} (h0 : b ≠ 0#128) (htop : b ≠ BitVec.ofNat 128 (2 ^ 127)) :
    incOf (b + BitVec.ofNat 128 (2 ^ 127)) = incOf b := by
  have hb0 : b.toNat ≠ 0 := fun h => h0 (BitVec.eq_of_toNat_eq h)
  have hbtop : b.toNat ≠ 2 ^ 127 := fun h => htop (BitVec.eq_of_toNat_eq h)
  have hsum : (b + BitVec.ofNat 128 (2 ^ 127)).toNat = (b.toNat + 2 ^ 127) % 2 ^ 128 := BitVec.toNat_add _ _
  apply BitVec.eq_of_toNat_eq
  rw [incOf_toNat, incOf_toNat, if_neg hb0, if_neg (by omega), hsum]
  omega

end Sys2Proof.Machine
end

section
/-! PROOF. StreamSeed, and SEED and SEEDS on the machine and over the registers (42_stream_seed.md rules R51 to R53). -/

namespace Sys2Proof.Machine

theorem streamSeed_toNat (seed selector : U128) :
    (streamSeed seed selector).1.toNat =
      ((seed.toNat + (incOf selector).toNat) * 0xda942042e4dd58b5 + (incOf selector).toNat) % 2 ^ 128 := by
  rw [streamSeed, stateAdvance_toNat, add128_toNat]
  omega

theorem streamSeed_zero_toNat (seed : U128) :
    (streamSeed seed 0#128).1.toNat =
      ((seed.toNat + 0x5851f42d4c957f2d14057b7ef767814f) * 0xda942042e4dd58b5 +
        0x5851f42d4c957f2d14057b7ef767814f) % 2 ^ 128 := by
  have hinc : (incOf 0#128).toNat = 0x5851f42d4c957f2d14057b7ef767814f := rfl
  rw [streamSeed_toNat, hinc]

/-- The first NEXT after a creation answers the word of the state created. -/
theorem Engine.run_creating_next {i : Instr} (hi : creates i = true) (e : Engine) :
    (e.run [encode i, encode .next]).2 =
      [(e.answer i).2, wordResponse (outputPermute (e.answer i).1.state)] := by
  have hvalid : (e.answer i).1.valid = true := by rw [Engine.answer_valid, hi, Bool.true_or]
  rw [Engine.run_encode_cons, Engine.run_encode, Engine.answer_next_of_valid hvalid]

theorem streamSeed_snd (seed selector : U128) : (streamSeed seed selector).2 = incOf selector := rfl

/-- SEED leaves and answers what SEEDS with selector 0 does, whatever the registers were (R52). -/
theorem Engine.answer_seed (e : Engine) (a : U128) : e.answer (.seed a) = e.answer (.seeds a 0#128) := rfl

theorem Engine.answer_seeds (e : Engine) (a b : U128) :
    e.answer (.seeds a b) = (⟨(streamSeed a b).1, incOf b, true⟩, responseWord statusOk noData) := rfl

/-- Settles O28: StreamSeed by its value, SEEDS and SEED as their pseudocode, and the NEXT after a creation. -/
theorem streamSeedBumpsThenAdvancesOnce : Obligations.StreamSeedBumpsThenAdvancesOnce := by
  refine fun seed selector e => ⟨streamSeed_snd seed selector, streamSeed_toNat seed selector, incOf_odd selector,
    ?seeds, ?seed, ?firstWord⟩
  case seeds => rw [Engine.run_encode, Engine.answer_seeds, streamSeed_snd]
  case seed => rw [Engine.run_encode, Engine.answer_seed, Engine.answer_seeds, streamSeed_snd]
  case firstWord =>
    rw [Engine.run_creating_next rfl, Engine.answer_seeds]
    rfl

/-! The worked examples of R52 and R53. -/

theorem responseWord_ok_noData : responseWord statusOk noData = 0#264 := BitVec.zero_append_zero

theorem wordResponse_eq_setWidth (w : U64) : wordResponse w = w.setWidth 264 := by
  have hzero : statusOk.toNat = 0 := rfl
  apply BitVec.eq_of_toNat_eq
  rw [wordResponse, responseWord, append_toNat, dataOfWord, zext256_toNat, hzero, Nat.zero_mul, Nat.zero_add,
    BitVec.toNat_setWidth_of_le (by decide)]

theorem wordResponse_ofNat {n : Nat} (hn : n < 2 ^ 64) : wordResponse (BitVec.ofNat 64 n) = BitVec.ofNat 264 n := by
  rw [wordResponse_eq_setWidth, BitVec.setWidth_ofNat_of_le_of_lt (by decide) hn]

theorem streamSeed_zero_zero : (streamSeed 0#128 0#128).1 = 0x7110175022adf5438fd26b32753c162a#128 := rfl

theorem streamSeed_42_zero : (streamSeed 42#128 0#128).1 = 0x7110175022adf5676c1fb62c018ca3dc#128 := rfl

theorem streamSeed_42_one : (streamSeed 42#128 1#128).1 = 0x00000000000000266c09abc23ae897d4#128 := rfl

/-- Settles O16: SEED as StreamSeed with selector 0, its word by the decoder, and the examples by evaluation. -/
theorem seedFollowsItsRule : Obligations.SeedFollowsItsRule := by
  refine ⟨fun a s => ⟨_, streamSeed_zero_toNat a, ?machine⟩, decode_commandWord_seed, fun _ => rfl,
    fun _ _ => rfl, fun e => ?seed0, fun e => ?seed42, fun e => ?firstWord⟩
  case machine =>
    rw [exec_eq_answer, Engine.answer_seed, Engine.answer_seeds, incOf_zero]
    rfl
  case seed0 => rw [Engine.run_encode, Engine.answer_seed, Engine.answer_seeds, streamSeed_zero_zero]
  case seed42 => rw [Engine.run_encode, Engine.answer_seed, Engine.answer_seeds, streamSeed_42_zero]
  case firstWord =>
    have hword : outputPermute 0x7110175022adf5676c1fb62c018ca3dc#128 = 0x161fdf2a9b15ce6f#64 := rfl
    rw [Engine.run_creating_next rfl, Engine.answer_seed, Engine.answer_seeds, streamSeed_42_zero, hword,
      wordResponse_ofNat (by decide), responseWord_ok_noData]

/-- Settles O17: SEEDS as StreamSeed, its word by the decoder, the collisions by the lost bit, and the examples by
evaluation. -/
theorem seedsFollowsItsRule : Obligations.SeedsFollowsItsRule := by
  refine ⟨fun a b s => ⟨_, _, incOf_toNat b, streamSeed_toNat a b, exec_eq_answer (.seeds a b) s⟩,
    decode_commandWord_seeds, fun _ _ => rfl, incOf_zero, incOf_one, rfl, rfl, fun b => incOf_add_top_bit,
    fun e => ⟨?firstWord, ?registers⟩⟩
  case firstWord =>
    have hword : outputPermute 0x00000000000000266c09abc23ae897d4#128 = 0x84c75ffdbc13e14a#64 := rfl
    rw [Engine.run_creating_next rfl, Engine.answer_seeds, streamSeed_42_one, hword,
      wordResponse_ofNat (by decide), responseWord_ok_noData]
  case registers => rw [Engine.run_encode, Engine.answer_seeds, streamSeed_42_one, incOf_one]

end Sys2Proof.Machine
end

section
/-! PROOF. LOAD and SAVE on the machine and over the registers, and what a saved pair restores (43_state_access.md rules R55
to R57). -/

namespace Sys2Proof.Machine

/-- The response of SAVE to a pair. -/
def pairResponse (state inc : U128) : ResponseWord := responseWord statusOk (dataOfPair state inc)

theorem pairResponse_eq_append (state inc : U128) : pairResponse state inc = 0x00#8 ++ state ++ inc := by
  rw [BitVec.append_assoc, BitVec.cast_eq, pairResponse, responseWord, dataOfPair, statusOk]

theorem Engine.answer_load (e : Engine) (a b : U128) :
    e.answer (.load a b) = (⟨a, b, true⟩, responseWord statusOk noData) := rfl

theorem Engine.answer_adv_of_valid {e : Engine} (he : e.valid = true) :
    e.answer .adv = (⟨stateAdvance e.state e.inc, e.inc, true⟩, responseWord statusOk noData) := if_pos he

theorem Engine.answer_save_of_valid {e : Engine} (he : e.valid = true) :
    e.answer .save = (e, pairResponse e.state e.inc) := if_pos he

/-- SAVE writes no register, whether or not there is a pair to read. -/
theorem Engine.answer_save_registers (e : Engine) : (e.answer .save).1 = e := by
  cases he : e.valid with
  | true => rw [Engine.answer_save_of_valid he]
  | false => rw [Engine.answer_of_unseeded rfl he]

/-- After LOAD every engine runs as the engine that holds the pair. -/
theorem Engine.run_load_cons (e : Engine) (a b : U128) (cws : List CommandWord) :
    e.run (encode (.load a b) :: cws) =
      ((Engine.run ⟨a, b, true⟩ cws).1, responseWord statusOk noData :: (Engine.run ⟨a, b, true⟩ cws).2) :=
  Engine.run_encode_cons e (.load a b) cws

/-- SAVE adds its own response to a run and nothing else. -/
theorem Engine.run_save_cons (e : Engine) (cws : List CommandWord) :
    e.run (encode .save :: cws) = ((e.run cws).1, (e.answer .save).2 :: (e.run cws).2) := by
  rw [Engine.run_encode_cons, Engine.answer_save_registers]

/-- A run of two lists is the run of the second from the registers that the first leaves. -/
theorem Engine.run_append (e : Engine) (xs ys : List CommandWord) :
    e.run (xs ++ ys) = (((e.run xs).1.run ys).1, (e.run xs).2 ++ ((e.run xs).1.run ys).2) := by
  induction xs generalizing e with
  | nil => rfl
  | cons cw xs ih => simp only [List.cons_append, Engine.run, ih]

/-- Settles O37: SAVE as its pseudocode on a created engine, and LOAD of a created engine's pair, which makes any engine that
engine. -/
theorem loadRestoresWhatSaveRead : Obligations.LoadRestoresWhatSaveRead := by
  rintro ⟨s, i, v⟩ e' cws he
  obtain rfl : v = true := he
  refine ⟨?save, ?load⟩
  case save => rw [Engine.run_encode, Engine.answer_save_of_valid rfl, pairResponse_eq_append]
  case load =>
    rw [Engine.run_load_cons]
    rfl

/-- Settles O18: LOAD as its pseudocode, its word by the decoder, a later list as the run of the engine that holds the pair,
and the example by evaluation. -/
theorem loadFollowsItsRule : Obligations.LoadFollowsItsRule := by
  refine ⟨fun a b s => exec_eq_answer (.load a b) s, decode_commandWord_load, fun _ _ => rfl,
    fun a b e cws => congrArg Prod.snd (Engine.run_load_cons e a b cws), fun a b e => ?advNext, fun e => ?worked⟩
  case advNext =>
    rw [Engine.run_load_cons, Engine.run_encode_cons, Engine.run_encode, Engine.answer_adv_of_valid rfl,
      Engine.answer_next_of_valid rfl, responseWord_ok_noData]
    exact ⟨rfl, rfl⟩
  case worked =>
    have hresponse : pairResponse (0x5851f42d4c957f2d14057b7ef767814f#128 - 0xda942042e4dd58b5#128)
        0x5851f42d4c957f2d14057b7ef767814f#128 =
        0x005851f42d4c957f2c39715b3c128a289a5851f42d4c957f2d14057b7ef767814f#264 := by
      simp [pairResponse, responseWord, statusOk, dataOfPair]
    rw [Engine.run_load_cons, Engine.run_encode_cons, Engine.run_encode, Engine.answer_adv_of_valid rfl,
      Engine.answer_save_of_valid rfl, stateAdvance_allOnes, hresponse, responseWord_ok_noData]

/-- The seed of a pair that SEEDS made: one step back, and the bump taken off (R56). -/
theorem stateRetreat_streamSeed_sub_inc (seed selector : U128) :
    stateRetreat (streamSeed seed selector).1 (incOf selector) - incOf selector = seed :=
  calc stateRetreat (streamSeed seed selector).1 (incOf selector) - incOf selector
      = add128 seed (incOf selector) - incOf selector :=
        congrArg (· - incOf selector) (stateRetreat_stateAdvance _ _)
    _ = seed := add_sub_cancel_right seed (incOf selector)

theorem exec_save_of_valid {s : State} (hs : s.engine.valid = true) :
    exec .save s = .next { s with responses := s.responses ++ [pairResponse s.engine.state s.engine.inc] } := by
  rw [exec_eq_answer, Engine.answer_save_of_valid hs]

/-- Settles O19: SAVE by the two cases of `valid`, its word by the decoder, the lists around it by the run of two lists, the
seed by one step back, and the example by evaluation. -/
theorem saveFollowsItsRule : Obligations.SaveFollowsItsRule := by
  refine ⟨fun s hs => ?created, fun _ hs => exec_of_unseeded rfl hs, decode_commandWord_save, rfl,
    fun e xs ys => ⟨((e.run xs).1.answer .save).2, ?between, congrArg Prod.snd (Engine.run_append e xs ys)⟩,
    ⟨multiplierInverse, multiplierInverse_mul, fun seed selector e => ?seed⟩, fun e => ?worked⟩
  case created => rw [exec_save_of_valid hs, pairResponse_eq_append]
  case between => rw [Engine.run_append, Engine.run_save_cons]
  case seed =>
    rw [Engine.run_encode, Engine.answer_seeds]
    exact stateRetreat_streamSeed_sub_inc seed selector
  case worked =>
    have hresponse : pairResponse 0x7110175022adf5676c1fb62c018ca3dc#128 0x5851f42d4c957f2d14057b7ef767814f#128 =
        0x007110175022adf5676c1fb62c018ca3dc5851f42d4c957f2d14057b7ef767814f#264 := by
      simp [pairResponse, responseWord, statusOk, dataOfPair]
    rw [Engine.run_encode_cons, Engine.run_encode, Engine.answer_seed, Engine.answer_seeds, streamSeed_42_zero, incOf_zero,
      Engine.answer_save_of_valid rfl, hresponse, responseWord_ok_noData]

end Sys2Proof.Machine
end

section
/-! PROOF. Which commands answer an error: the reserved opcodes, and ADV, NEXT and SAVE without a GeneratorState; no operand
and no increment does (60_exceptions.md rules R60 to R62, R68). -/

namespace Sys2Proof.Machine

/-- A command that has the GeneratorState it uses, or uses none, answers OK. -/
theorem Engine.answer_response_ok {e : Engine} {i : Instr} (h : e.valid = true ∨ usesGenerator i = false) :
    ∃ data, (e.answer i).2 = responseWord statusOk data := by
  cases i with
  | perm | seed | seeds | load => exact ⟨_, rfl⟩
  | adv | next | save =>
    have he : e.valid = true := by simpa [usesGenerator] using h
    simp [Engine.answer, he]

/-- Settles O40: no arm of the pseudocode looks at an operand or at the increment before it answers OK. -/
theorem noOperandCausesAnError : Obligations.NoOperandCausesAnError := by
  refine ⟨fun i s h => ?ok, fun s hs _ =>
    ⟨_, stateAdvance_toNat s.engine.state s.engine.inc, exec_adv_of_valid hs, exec_next_of_valid hs, ?save⟩⟩
  case ok =>
    obtain ⟨data, hdata⟩ := Engine.answer_response_ok h
    exact ⟨_, data, exec_eq_answer i s, congrArg (s.responses ++ [·]) hdata⟩
  case save => rw [exec_save_of_valid hs, pairResponse_eq_append]

theorem usesGenerator_iff_opcode (i : Instr) :
    usesGenerator i = true ↔ i.opcode.toNat = 1 ∨ i.opcode.toNat = 3 ∨ i.opcode.toNat = 7 := by
  cases i <;> simp [usesGenerator, Instr.opcode]

theorem step_of_unseeded {s : State} {cw : CommandWord} {rest : List HostEvent} {i : Instr}
    (h : s.pending = .command cw :: rest) (hd : decode cw = .command i) (hi : usesGenerator i = true)
    (hs : s.engine.valid = false) :
    step s = .next { s with pending := rest, responses := s.responses ++ [errorWord .unseeded] } := by
  rw [step_of_command h, Engine.stepWord_of_command hd, Engine.answer_of_unseeded hi hs]

/-- Settles O12: the decoder sorts out Illegal; of the commands, those that use the GeneratorState raise Unseeded without
one, and every other answers OK. -/
theorem errorsAreAnsweredAndChangeNothing : Obligations.ErrorsAreAnsweredAndChangeNothing := by
  intro s rest (cw : CommandWord) hp
  rw [← CommandWord.opc_toNat]
  cases hd : decode cw with
  | illegal =>
    rw [if_pos (opc_of_decode_illegal hd)]
    exact step_of_illegal hp hd
  | command i =>
    have hlegal : ¬(cw.opc.toNat = 0 ∨ 8 ≤ cw.opc.toNat) := by simp [← decode_eq_illegal_iff, hd]
    rw [if_neg hlegal, opc_of_decode_command hd]
    simp only [← usesGenerator_iff_opcode]
    split
    next hunseeded =>
      obtain ⟨hs, hi⟩ := hunseeded
      exact step_of_unseeded hp hd hi hs
    next hseeded =>
      have hok : s.engine.valid = true ∨ usesGenerator i = false := by
        simpa [imp_iff_not_or] using hseeded
      obtain ⟨data, hdata⟩ := Engine.answer_response_ok hok
      rw [← Engine.stepWord_of_command hd] at hdata
      exact ⟨_, data, step_of_command hp, rfl, congrArg (s.responses ++ [·]) hdata⟩

end Sys2Proof.Machine
end

section
/-! PROOF. What one step does to the registers, event by event: only reset clears `valid`, and only a creating word sets it
(70_reset_and_hazards.md rules R70, R74). -/

namespace Sys2Proof.Machine

theorem step_of_nothing_pending {s : State} (h : s.pending = []) : step s = .next s := by
  simp [step, State.takeEvent_of_nil h]

theorem step_of_either_reset {s : State} {ev : HostEvent} {rest : List HostEvent} (h : s.pending = ev :: rest)
    (hev : ev = .reset ∨ ∃ cw, ev = .resetDuring cw) :
    step s = .next (State.takeReset { s with pending := rest }) := by
  rcases hev with rfl | ⟨cw, rfl⟩
  · exact step_of_reset h
  · exact step_of_resetDuring h

/-- All that a step can do to the registers. -/
theorem step_engine_cases {s t : State} (h : step s = .next t) :
    (s.pending = [] ∧ t.engine = s.engine) ∨
    (∃ cw rest, s.pending = .command cw :: rest ∧ t.engine = (s.engine.stepWord cw).1) ∨
    (∃ ev rest, s.pending = ev :: rest ∧ (ev = .reset ∨ ∃ cw, ev = .resetDuring cw) ∧
      t.engine = Engine.afterReset s.drawSource s.draws) := by
  rcases step_next_cases h with ⟨hp, rfl⟩ | ⟨cw, rest, i, hp, hd, hx⟩ | ⟨cw, rest, hp, hd, rfl⟩ |
    ⟨ev, rest, hp, hev, rfl⟩
  · exact .inl ⟨hp, rfl⟩
  · rw [exec_eq_answer, Host.Outcome.next.injEq] at hx
    subst hx
    exact .inr (.inl ⟨cw, rest, hp, by rw [Engine.stepWord_of_command hd]⟩)
  · exact .inr (.inl ⟨cw, rest, hp, by rw [Engine.stepWord_of_illegal hd, State.raise_eq]⟩)
  · exact .inr (.inr ⟨ev, rest, hp, hev, rfl⟩)

/-- Of the three things a step can do to the registers, only reset takes `valid` from 1 to 0. -/
theorem reset_taken_of_valid_cleared {s t : State} (h : step s = .next t) (hs : s.engine.valid = true)
    (ht : t.engine.valid = false) :
    ∃ ev rest, s.pending = ev :: rest ∧ (ev = .reset ∨ ∃ cw, ev = .resetDuring cw) := by
  rcases step_engine_cases h with ⟨_, he⟩ | ⟨cw, _, _, he⟩ | ⟨ev, rest, hp, hev, _⟩
  · simp [he, hs] at ht
  · simp [he, Engine.stepWord_valid, hs] at ht
  · exact ⟨ev, rest, hp, hev⟩

/-- Of the three things a step can do to the registers, only a creating word takes `valid` from 0 to 1. -/
theorem creating_word_taken_of_valid_set {s t : State} (h : step s = .next t) (hs : s.engine.valid = false)
    (ht : t.engine.valid = true) :
    ∃ cw rest, s.pending = .command cw :: rest ∧ wordCreates cw = true := by
  rcases step_engine_cases h with ⟨_, he⟩ | ⟨cw, rest, hp, he⟩ | ⟨_, _, _, _, he⟩
  · simp [he, hs] at ht
  · exact ⟨cw, rest, hp, by simpa [he, Engine.stepWord_valid, hs] using ht⟩
  · simp [he, Engine.afterReset] at ht

theorem event_taken_of_engine_changed {s t : State} (h : step s = .next t) (hne : t.engine ≠ s.engine) :
    ∃ ev rest, s.pending = ev :: rest ∧
      (ev = .reset ∨ (∃ cw, ev = .resetDuring cw) ∨ ∃ cw, ev = .command cw) := by
  rcases step_engine_cases h with ⟨_, he⟩ | ⟨cw, rest, hp, _⟩ | ⟨ev, rest, hp, hev, _⟩
  · exact absurd he hne
  · exact ⟨_, rest, hp, .inr (.inr ⟨cw, rfl⟩)⟩
  · exact ⟨ev, rest, hp, hev.imp_right .inl⟩

/-- Settles O10: a reset by its step, the other clauses by the three things a step can do to the registers. -/
theorem resetClearsValidAndNothingElseDoes : Obligations.ResetClearsValidAndNothingElseDoes :=
  ⟨fun _ _ cw _ hev => ⟨_, step_of_either_reset rfl (hev.imp_right fun h => ⟨cw, h⟩), rfl, rfl, rfl⟩,
    fun _ _ => event_taken_of_engine_changed, fun _ _ => reset_taken_of_valid_cleared, rfl, rfl,
    fun _ _ => creating_word_taken_of_valid_set⟩

end Sys2Proof.Machine
end

section
/-! PROOF. The spec's fold gives one response per word, and every step answers (70_reset_and_hazards.md rule R72). -/

namespace Sys2Proof.Machine

theorem Engine.run_responses_length (e : Engine) (cws : List CommandWord) : (e.run cws).2.length = cws.length := by
  induction cws generalizing e with
  | nil => rfl
  | cons cw cws ih => exact congrArg (· + 1) (ih (e.stepWord cw).1)

theorem step_answers (s : State) : ∃ t, step s = .next t := by
  cases hp : s.pending with
  | nil => exact ⟨s, step_of_nothing_pending hp⟩
  | cons ev rest =>
    cases ev with
    | command cw => exact ⟨_, step_of_command hp⟩
    | reset => exact ⟨_, step_of_reset hp⟩
    | resetDuring cw => exact ⟨_, step_of_resetDuring hp⟩

/-- Settles O34: the run over a list by induction on it, the number of responses likewise, and a step by its event. -/
theorem runIsTheFoldOfTheStepFunction : Obligations.RunIsTheFoldOfTheStepFunction :=
  ⟨fun s cws rest => core_run_commands cws s rest, Engine.run_responses_length, step_answers⟩

end Sys2Proof.Machine
end

section
/-! PROOF. The encodings are the canonical words (30_encoding.md rules R30, R33, R35). -/

namespace Sys2Proof.Machine

/-- Settles O3: the decoder reads from a command's own word the fields that the command put there. -/
theorem decodeOfEncodeIsTheCommand : Obligations.DecodeOfEncodeIsTheCommand := decode_encode

/-- Of the words with a command's opcode, the canonical ones that decode to it are those that hold its operands. -/
theorem decode_and_canonical_commandWord_iff (i : Instr) (a b : U128) :
    decode (commandWord i.opcode a b) = .command i ∧ (commandWord i.opcode a b).canonical = true ↔
      a = i.operandA ∧ b = i.operandB := by
  cases i <;>
    simp [Instr.opcode, Instr.operandA, Instr.operandB, CommandWord.canonical, usesA, usesB]

/-- Settles O4: a word that decodes to a command has its opcode, so the word is that opcode and two operand fields. -/
theorem encodingsAreTheCanonicalWords : Obligations.EncodingsAreTheCanonicalWords := by
  refine fun i cw => ⟨fun ⟨hd, hcanonical⟩ => ?canonical, ?encoding⟩
  case canonical =>
    have hopc : cw.opc = i.opcode := BitVec.eq_of_toNat_eq (opc_of_decode_command hd)
    rw [← commandWord_fields cw, hopc] at hd hcanonical ⊢
    obtain ⟨ha, hb⟩ := (decode_and_canonical_commandWord_iff i cw.a cw.b).mp ⟨hd, hcanonical⟩
    rw [ha, hb, encode]
  case encoding =>
    rintro rfl
    exact (decode_and_canonical_commandWord_iff i i.operandA i.operandB).mpr ⟨rfl, rfl⟩

end Sys2Proof.Machine
end

section
/-! PROOF. Two invariants that every step keeps: the responses are legal (30_encoding.md rule R31), and a created increment
is odd where the host loads only odd ones (10_state.md rule R11). -/

namespace Sys2Proof.Machine

/-- All that a step can do, by the event it takes: nothing; a word, as the spec's step function acts on it; a reset. -/
theorem step_event_cases {s t : State} (h : step s = .next t) :
    (s.pending = [] ∧ t = s) ∨
    (∃ cw rest, s.pending = .command cw :: rest ∧
      t = { s with
        pending := rest
        engine := (s.engine.stepWord cw).1
        responses := s.responses ++ [(s.engine.stepWord cw).2] }) ∨
    (∃ ev rest, s.pending = ev :: rest ∧ (ev = .reset ∨ ∃ cw, ev = .resetDuring cw) ∧
      t = State.takeReset { s with pending := rest }) := by
  rcases step_next_cases h with hidle | ⟨cw, rest, _, hp, _, _⟩ | ⟨cw, rest, hp, _, _⟩ | hreset
  · exact .inl hidle
  · exact .inr (.inl ⟨cw, rest, hp, by simpa [step_of_command hp] using h.symm⟩)
  · exact .inr (.inl ⟨cw, rest, hp, by simpa [step_of_command hp] using h.symm⟩)
  · exact .inr (.inr hreset)

/-! Responses. -/

theorem responseLegal_ok (data : U256) : responseLegal (responseWord statusOk data) = true := by
  simp [responseLegal, statusOk]

theorem responseLegal_errorWord (err : CommandError) : responseLegal (errorWord err) = true := by
  cases err <;> simp [responseLegal, errorWord, CommandError.status, noData]

/-- A command answers OK, or raises Unseeded for want of the GeneratorState that it uses. -/
theorem Engine.answer_response_legal (e : Engine) (i : Instr) : responseLegal (e.answer i).2 = true := by
  by_cases hok : e.valid = true ∨ usesGenerator i = false
  · obtain ⟨data, hdata⟩ := Engine.answer_response_ok hok
    rw [hdata, responseLegal_ok]
  · obtain ⟨he, hi⟩ : e.valid = false ∧ usesGenerator i = true := by simpa using hok
    rw [Engine.answer_of_unseeded hi he, responseLegal_errorWord]

theorem Engine.stepWord_response_legal (e : Engine) (cw : CommandWord) :
    responseLegal (e.stepWord cw).2 = true := by
  cases hd : decode cw with
  | command i => rw [Engine.stepWord_of_command hd, Engine.answer_response_legal]
  | illegal => rw [Engine.stepWord_of_illegal hd, responseLegal_errorWord]

/-- Settles O31: only a command word adds a response, and that one is legal. -/
theorem stepKeepsResponsesLegal : Obligations.StepKeepsResponsesLegal := by
  intro s t hs h
  rcases step_event_cases h with ⟨_, rfl⟩ | ⟨cw, _, _, rfl⟩ | ⟨_, _, _, _, rfl⟩
  · exact hs
  · rw [State.responsesLegal] at hs ⊢
    rw [List.all_append, hs, List.all_cons, Engine.stepWord_response_legal, List.all_nil]
    rfl
  · exact hs

/-! Odd increments. -/

theorem Engine.oddInc_iff (e : Engine) : e.oddInc = true ↔ (e.valid = true → e.inc.toNat % 2 = 1) := by
  simp [Engine.oddInc, imp_iff_not_or]

theorem State.hostKeepsOddInc_iff (s : State) :
    s.hostKeepsOddInc = true ↔ s.engine.oddInc = true ∧ ∀ ev ∈ s.pending, ev.keepsOddInc = true := by
  simp [State.hostKeepsOddInc]

theorem odd_of_keepsOddInc {cw : CommandWord} {a b : U128} (hd : decode cw = .command (.load a b))
    (h : HostEvent.keepsOddInc (.command cw) = true) : b.toNat % 2 = 1 := by
  simpa [HostEvent.keepsOddInc, hd] using h

/-- The only increment that can be even is one that LOAD brings: SEED and SEEDS make an odd one, and the other commands
leave it. -/
theorem Engine.answer_oddInc {e : Engine} {i : Instr} (he : e.oddInc = true)
    (hload : ∀ a b, i = .load a b → b.toNat % 2 = 1) : (e.answer i).1.oddInc = true := by
  rw [Engine.oddInc_iff] at he ⊢
  cases i with
  | seed a => exact fun _ => incOf_odd 0#128
  | seeds a b => exact fun _ => incOf_odd b
  | load a b => exact fun _ => hload a b rfl
  | adv | perm | next | save =>
    rw [Engine.answer_inc rfl, Engine.answer_valid]
    exact he

theorem Engine.stepWord_oddInc {e : Engine} {cw : CommandWord} (he : e.oddInc = true)
    (h : HostEvent.keepsOddInc (.command cw) = true) : (e.stepWord cw).1.oddInc = true := by
  cases hd : decode cw with
  | command i =>
    rw [Engine.stepWord_of_command hd]
    exact Engine.answer_oddInc he fun a b hi => odd_of_keepsOddInc (hd.trans (congrArg _ hi)) h
  | illegal => rw [Engine.stepWord_of_illegal hd, he]

/-- Settles O32: a word that the host may issue keeps the increment odd, and a reset leaves none. -/
theorem stepKeepsIncOdd : Obligations.StepKeepsIncOdd := by
  intro s t hs h
  rw [State.hostKeepsOddInc_iff] at hs ⊢
  obtain ⟨hodd, hhost⟩ := hs
  rcases step_event_cases h with ⟨_, rfl⟩ | ⟨cw, rest, hp, rfl⟩ | ⟨ev, rest, hp, _, rfl⟩
  · exact ⟨hodd, hhost⟩
  · rw [hp, List.forall_mem_cons] at hhost
    obtain ⟨hcw, hrest⟩ := hhost
    exact ⟨Engine.stepWord_oddInc hodd hcw, hrest⟩
  · rw [hp, List.forall_mem_cons] at hhost
    exact ⟨rfl, hhost.2⟩

/-- Settles O33: at reset no response is given, no event is pending, and no GeneratorState is created. -/
theorem invariantsHoldAtReset : Obligations.InvariantsHoldAtReset := ⟨rfl, rfl, rfl⟩

end Sys2Proof.Machine
end

section
/-! PROOF. Which selectors give which increment (42_stream_seed.md section 5; 70_reset_and_hazards.md rule R75). -/

namespace Sys2Proof.Machine

/-- The selectors of an increment: 0 for the default one, and the nonzero ones whose low 127 bits are its upper bits. -/
theorem incOf_toNat_eq_iff (b : U128) (k : Nat) :
    (incOf b).toNat = k ↔
      b.toNat = 0 ∧ k = 0x5851f42d4c957f2d14057b7ef767814f ∨ b.toNat ≠ 0 ∧ 2 * (b.toNat % 2 ^ 127) + 1 = k := by
  rw [incOf_toNat]
  split <;> omega

theorem incOf_eq_iff (b i : U128) :
    incOf b = i ↔
      b.toNat = 0 ∧ i.toNat = 0x5851f42d4c957f2d14057b7ef767814f ∨
        b.toNat ≠ 0 ∧ 2 * (b.toNat % 2 ^ 127) + 1 = i.toNat := by
  rw [← incOf_toNat_eq_iff, BitVec.toNat_inj]

theorem incOf_toNat_of_low {b : U128} (h0 : 1 ≤ b.toNat) (hb : b.toNat < 2 ^ 127) :
    (incOf b).toNat = 2 * b.toNat + 1 :=
  (incOf_toNat_eq_iff b _).mpr (.inr (by omega))

theorem incOf_toNat_of_high {b : U128} (hb : 2 ^ 127 ≤ b.toNat) :
    (incOf b).toNat = 2 * (b.toNat - 2 ^ 127) + 1 :=
  (incOf_toNat_eq_iff b _).mpr (.inr (by omega))

theorem exists_low_selector {k : Nat} (h3 : 3 ≤ k) (hk : k < 2 ^ 128) (hodd : k % 2 = 1) :
    ∃ b : U128, 1 ≤ b.toNat ∧ b.toNat < 2 ^ 127 ∧ (incOf b).toNat = k := by
  have hb : (BitVec.ofNat 128 (k / 2)).toNat = k / 2 := by
    rw [BitVec.toNat_ofNat]
    exact Nat.mod_eq_of_lt (by omega)
  refine ⟨BitVec.ofNat 128 (k / 2), by omega, by omega, ?_⟩
  rw [incOf_toNat_of_low (by omega) (by omega)]
  omega

/-- Only the default increment has 0 for a selector besides the two. -/
theorem incOf_eq_iff_of_ne_default {i : U128} (hodd : i.toNat % 2 = 1) (h1 : i ≠ 1#128)
    (hD : i ≠ 0x5851f42d4c957f2d14057b7ef767814f#128) (b : U128) :
    incOf b = i ↔ b.toNat = i.toNat / 2 ∨ b.toNat = i.toNat / 2 + 2 ^ 127 := by
  rw [incOf_eq_iff]
  bv_omega

theorem incOf_eq_default_iff (b : U128) :
    incOf b = 0x5851f42d4c957f2d14057b7ef767814f#128 ↔
      b = 0#128 ∨ b = 0x2c28fa16a64abf968a02bdbf7bb3c0a7#128 ∨ b = 0xac28fa16a64abf968a02bdbf7bb3c0a7#128 := by
  simp only [incOf_eq_iff, bitvec_to_nat, and_true]
  omega

/-- The increment 1 has no upper bits, and its other selector would be 0, which is the default stream's. -/
theorem incOf_eq_one_iff (b : U128) : incOf b = 1#128 ↔ b = BitVec.ofNat 128 (2 ^ 127) := by
  rw [incOf_eq_iff]
  bv_omega

/-- Below 2^127 only 0 and the default increment's own selector meet. -/
theorem eq_of_incOf_eq {b b' : U128} (hb : b.toNat < 2 ^ 127) (hb' : b'.toNat < 2 ^ 127)
    (hd : b ≠ 0x2c28fa16a64abf968a02bdbf7bb3c0a7#128) (hd' : b' ≠ 0x2c28fa16a64abf968a02bdbf7bb3c0a7#128)
    (h : incOf b = incOf b') : b = b' := by
  rw [incOf_eq_iff, incOf_toNat] at h
  split at h <;> bv_omega

/-- Settles O27: each clause by the selectors of an increment. -/
theorem selectorsThatCollide : Obligations.SelectorsThatCollide :=
  ⟨fun _ => incOf_toNat_of_low, fun _ => exists_low_selector, fun _ => incOf_toNat_of_high, incOf_eq_default_iff,
    incOf_eq_one_iff, fun _ => incOf_eq_iff_of_ne_default, fun b => by simp [incOf_odd b],
    fun _ _ => eq_of_incOf_eq⟩

end Sys2Proof.Machine
end

section
/-! PROOF. Any number of steps answers, and each command gets one response, in order (20_memory.md rule R21,
70_reset_and_hazards.md rule R72). -/

namespace Sys2Proof.Machine

/-- The events that get a response: commands, and no reset. -/
def HostEvent.isAnswered : HostEvent → Bool
  | .command _ => true
  | .reset => false
  | .resetDuring _ => false

@[simp] theorem HostEvent.isAnswered_command (cw : CommandWord) : (HostEvent.command cw).isAnswered = true := rfl

theorem HostEvent.isAnswered_of_reset {ev : HostEvent} (h : ev = .reset ∨ ∃ cw, ev = .resetDuring cw) :
    ev.isAnswered = false := by
  rcases h with rfl | ⟨cw, rfl⟩ <;> rfl

/-- The channels of `t` are those of `s` after `n` events: they are taken, and each command among them is answered. -/
def AnswersEvents (n : Nat) (s t : State) : Prop :=
  t.pending = s.pending.drop n ∧ s.responses <+: t.responses ∧
    t.responses.length = s.responses.length + ((s.pending.take n).filter HostEvent.isAnswered).length

theorem AnswersEvents.zero (s : State) : AnswersEvents 0 s s := by simp [AnswersEvents]

theorem AnswersEvents.trans {m n : Nat} {s t u : State} (h : AnswersEvents m s t) (h' : AnswersEvents n t u) :
    AnswersEvents (m + n) s u := by
  obtain ⟨hp, hr, hlen⟩ := h
  obtain ⟨hp', hr', hlen'⟩ := h'
  rw [hp] at hp' hlen'
  refine ⟨by rw [hp', List.drop_drop], hr.trans hr', ?_⟩
  rw [hlen', hlen, List.take_add, List.filter_append, List.length_append, Nat.add_assoc]

theorem answersEvents_one_of_step {s t : State} (h : step s = .next t) : AnswersEvents 1 s t := by
  rcases step_event_cases h with ⟨hp, rfl⟩ | ⟨cw, rest, hp, rfl⟩ | ⟨ev, rest, hp, hev, rfl⟩
  · simp [AnswersEvents, hp]
  · simp [AnswersEvents, hp, List.filter_cons]
  · simp [AnswersEvents, hp, HostEvent.isAnswered_of_reset hev]

theorem core_run_answersEvents (n : Nat) (s : State) : ∃ t, core.run n s = .next t ∧ AnswersEvents n s t := by
  induction n generalizing s with
  | zero => exact ⟨s, core_run_zero s, AnswersEvents.zero s⟩
  | succ n ih =>
    obtain ⟨t, ht⟩ := step_answers s
    obtain ⟨u, hu, hrun⟩ := ih t
    refine ⟨u, (core_run_succ n ht).trans hu, ?_⟩
    rw [Nat.add_comm]
    exact (answersEvents_one_of_step ht).trans hrun

/-- Settles O35: by induction on the number of steps, each of which answers the one event it takes. -/
theorem eachCommandGetsOneResponse : Obligations.EachCommandGetsOneResponse := by
  intro n s
  obtain ⟨t, hrun, hpending, hprefix, hlength⟩ := core_run_answersEvents n s
  exact ⟨t, hrun, hpending, hprefix, hlength⟩

end Sys2Proof.Machine
end

section
/-! PROOF. Several engines: each does what it does alone, and draws its own reset contents (60_exceptions.md rule R67). -/

namespace Sys2Proof.Machine

theorem runSchedule_cons {sys mid : System} {j : Nat} (h : System.stepAt sys j = .next mid) (js : List Nat) :
    System.runSchedule sys (j :: js) = System.runSchedule mid js := by
  rw [System.runSchedule, h]

theorem stepAt_answers (sys : System) (j : Nat) : ∃ mid, System.stepAt sys j = .next mid := by
  cases hj : sys[j]? with
  | none => exact ⟨sys, stepAt_of_none hj⟩
  | some s =>
    obtain ⟨t, ht⟩ := step_answers s
    exact ⟨_, stepAt_of_step hj ht⟩

theorem stepAt_length {sys mid : System} {j : Nat} (h : System.stepAt sys j = .next mid) :
    mid.length = sys.length := by
  rcases stepAt_next_cases h with ⟨_, rfl⟩ | ⟨_, _, _, _, rfl⟩
  · rfl
  · exact List.length_set

theorem stepAt_getElem?_of_ne {sys mid : System} {i j : Nat} (h : System.stepAt sys j = .next mid) (hij : i ≠ j) :
    mid[i]? = sys[i]? := by
  rcases stepAt_next_cases h with ⟨_, rfl⟩ | ⟨_, _, _, _, rfl⟩
  · rfl
  · exact List.getElem?_set_ne hij.symm

theorem stepAt_getElem?_self {sys mid : System} {j : Nat} {s t : State} (h : System.stepAt sys j = .next mid)
    (hs : sys[j]? = some s) (ht : step s = .next t) : mid[j]? = some t := by
  rw [stepAt_of_step hs ht, Host.Outcome.next.injEq] at h
  obtain ⟨hlt, _⟩ := List.getElem?_eq_some_iff.mp hs
  rw [← h, List.getElem?_set_self hlt]

/-- Settles O38: by induction on the schedule; its first step is a step of the scheduled engine and touches no other. -/
theorem enginesAreIndependent : Obligations.EnginesAreIndependent := by
  intro sys schedule
  induction schedule generalizing sys with
  | nil => exact ⟨sys, rfl, rfl, fun j s hs => ⟨s, hs, core_run_zero s⟩⟩
  | cons k ks ih =>
    obtain ⟨mid, hmid⟩ := stepAt_answers sys k
    obtain ⟨sys', hrun, hlength, halone⟩ := ih mid
    refine ⟨sys', (runSchedule_cons hmid ks).trans hrun, hlength.trans (stepAt_length hmid), fun j s hs => ?_⟩
    by_cases hj : j = k
    · subst hj
      obtain ⟨t, ht⟩ := step_answers s
      rw [List.count_cons_self, core_run_succ _ ht]
      exact halone j t (stepAt_getElem?_self hmid hs ht)
    · rw [List.count_cons_of_ne (Ne.symm hj)]
      exact halone j s ((stepAt_getElem?_of_ne hmid hj).trans hs)

/-! The sources of the reset contents. -/

theorem drawSources_eq_nil_iff (sys : System) : System.drawSources sys = [] ↔ sys = [] := List.map_eq_nil_iff

theorem wellFormed_iff (sys : System) :
    System.wellFormed sys = true ↔ System.drawSources sys ≠ [] ∧ (System.drawSources sys).Nodup := by
  simp [System.wellFormed, drawSources_eq_nil_iff]

theorem drawSources_getElem? {sys : System} {j : Nat} {s : State} (h : sys[j]? = some s) :
    (System.drawSources sys)[j]? = some s.drawSource := by
  rw [System.drawSources, List.getElem?_map, h, Option.map_some]

theorem stepAt_drawSources {sys mid : System} {j : Nat} (h : System.stepAt sys j = .next mid) :
    System.drawSources mid = System.drawSources sys := by
  rcases stepAt_next_cases h with ⟨_, rfl⟩ | ⟨s, t, hs, ht, rfl⟩
  · rfl
  · obtain ⟨hlt, hget⟩ := List.getElem?_eq_some_iff.mp (drawSources_getElem? hs)
    calc System.drawSources (sys.set j t)
        = (System.drawSources sys).set j s.drawSource := by
          rw [System.drawSources, List.map_set, step_drawSource ht, System.drawSources]
      _ = System.drawSources sys := by rw [← hget, List.set_getElem_self]

theorem runSchedule_drawSources {sys sys' : System} {schedule : List Nat}
    (h : System.runSchedule sys schedule = .next sys') : System.drawSources sys' = System.drawSources sys := by
  induction schedule generalizing sys with
  | nil =>
    rw [System.runSchedule, Host.Outcome.next.injEq] at h
    rw [h]
  | cons k ks ih =>
    obtain ⟨mid, hmid⟩ := stepAt_answers sys k
    rw [runSchedule_cons hmid] at h
    rw [ih h, stepAt_drawSources hmid]

theorem powerUp_wellFormed {k : Nat} (hk : 1 ≤ k) : System.wellFormed (System.powerUp k) = true := by
  rw [wellFormed_iff, powerUp_drawSources, ne_eq, List.range_eq_nil]
  exact ⟨by omega, List.nodup_range⟩

theorem powerUp_getElem? {j k : Nat} (hj : j < k) : (System.powerUp k)[j]? = some (State.powerUp j) := by
  rw [System.powerUp, List.getElem?_map, List.getElem?_range hj, Option.map_some]

theorem drawSource_ne_of_wellFormed {sys : System} {i j : Nat} {s t : State} (hsys : System.wellFormed sys = true)
    (hij : i ≠ j) (hs : sys[i]? = some s) (ht : sys[j]? = some t) : s.drawSource ≠ t.drawSource := by
  obtain ⟨_, hnodup⟩ := (wellFormed_iff sys).mp hsys
  have hs' := drawSources_getElem? hs
  have ht' := drawSources_getElem? ht
  obtain ⟨hlt, _⟩ := List.getElem?_eq_some_iff.mp hs'
  intro heq
  exact hij ((List.getElem?_inj hlt hnodup).mp (by rw [hs', ht', heq]))

/-- Settles O39: power-up numbers the sources, no step changes one, and a reset draws from its engine's own. -/
theorem eachEngineHasItsOwnResetContents : Obligations.EachEngineHasItsOwnResetContents := by
  refine ⟨fun k hk => ⟨powerUp_wellFormed hk, by simp [System.powerUp],
      fun j hj => ⟨_, powerUp_getElem? hj, rfl, rfl, rfl⟩⟩,
    fun sys sys' schedule h => ⟨runSchedule_drawSources h, ?wellFormed⟩, fun sys j s ev rest hs hp hev => ?reset,
    fun _ _ _ _ _ => drawSource_ne_of_wellFormed⟩
  case wellFormed => 
    rw [wellFormed_iff, wellFormed_iff, runSchedule_drawSources h]
    exact id
  case reset =>
    obtain ⟨mid, hmid⟩ := stepAt_answers sys j
    exact ⟨mid, _, hmid, stepAt_getElem?_self hmid hs (step_of_either_reset hp hev), rfl,
      fun i => stepAt_getElem?_of_ne hmid⟩

end Sys2Proof.Machine
end

section
/-! PROOF. Commands repeated (20_memory.md section 3), and commands before a GeneratorState is created
(70_reset_and_hazards.md section 2). -/

namespace Sys2Proof.Machine

theorem Engine.run_twice (e : Engine) (i : Instr) :
    e.run [encode i, encode i] =
      (((e.answer i).1.answer i).1, [(e.answer i).2, ((e.answer i).1.answer i).2]) := by
  rw [Engine.run_encode_cons, Engine.run_encode]

theorem Engine.answer_registers_of_save_or_perm {i : Instr} (hi : i = .save ∨ ∃ v, i = .perm v) (e : Engine) :
    (e.answer i).1 = e := by
  rcases hi with rfl | ⟨v, rfl⟩
  · exact Engine.answer_save_registers e
  · rw [Engine.answer_perm]

/-- Settles O41: SAVE and PERM leave the registers to the second run, a creating command reads none, and NEXT and ADV
advance whatever they find. -/
theorem repeatedCommandsBehaveAsTheirKind : Obligations.RepeatedCommandsBehaveAsTheirKind := by
  refine ⟨fun e i hi => ⟨(e.answer i).2, ?idempotent⟩, fun e i hi => ?creating, fun e he => ⟨?next, ?adv⟩⟩
  case idempotent => simp only [Engine.run_twice, Engine.answer_registers_of_save_or_perm hi]
  case creating => rw [Engine.run_twice, Engine.run_encode, Engine.answer_of_creates hi _ e]
  case next =>
    rw [Engine.run_twice, Engine.answer_next_of_valid he, Engine.answer_next_of_valid rfl]
    rfl
  case adv => rw [Engine.run_twice, Engine.answer_adv_of_valid he, Engine.answer_adv_of_valid rfl]

theorem Engine.answer_registers_of_not_valid {e : Engine} {i : Instr} (he : e.valid = false)
    (hi : creates i = false) : (e.answer i).1 = e := by
  cases i with
  | adv | next | save => rw [Engine.answer_of_unseeded rfl he]
  | perm => rfl
  | seed | seeds | load => simp [creates] at hi

theorem Engine.stepWord_registers_of_not_valid {e : Engine} {cw : CommandWord} (he : e.valid = false)
    (hcw : wordCreates cw = false) : (e.stepWord cw).1 = e := by
  cases hd : decode cw with
  | command i =>
    have hi : creates i = false := by simpa [wordCreates, hd] using hcw
    rw [Engine.stepWord_of_command hd, Engine.answer_registers_of_not_valid he hi]
  | illegal => rw [Engine.stepWord_of_illegal hd]

/-- Without a creating word every word of a list finds the registers as they were before the list. -/
theorem Engine.run_of_not_valid {e : Engine} {cws : List CommandWord} (he : e.valid = false)
    (hcws : cws.any wordCreates = false) : e.run cws = (e, cws.map fun cw => (e.stepWord cw).2) := by
  induction cws with
  | nil => rfl
  | cons cw cws ih =>
    rw [List.any_cons, Bool.or_eq_false_iff] at hcws
    obtain ⟨hcw, hrest⟩ := hcws
    simp only [Engine.run, Engine.stepWord_registers_of_not_valid he hcw, ih hrest, List.map_cons]

/-- Settles O42: each word of the list is answered as by the engine before the list. -/
theorem unseededUntilCreated : Obligations.UnseededUntilCreated := by
  intro e cws he hcws
  have hrun := Engine.run_of_not_valid he hcws
  refine ⟨congrArg Prod.fst hrun, fun k cw i hk hd => ?_⟩
  have hresponse : (e.run cws).2[k]? = some (e.answer i).2 := by
    rw [hrun, List.getElem?_map, hk, Option.map_some, Engine.stepWord_of_command hd]
  constructor
  · intro hi
    rw [hresponse, Engine.answer_of_unseeded hi he]
    rfl
  · rintro v rfl
    rw [hresponse, Engine.answer_perm]
    rfl

end Sys2Proof.Machine
end

section
/-! PROOF. The assembler: the written commands it takes, and the literals it reads (30_encoding.md rule R36). -/

namespace Sys2Proof.Machine

theorem commandOf_source (i : Instr) : commandOf i.source = some i := by
  have hwf : i.source.wellFormed = true := i.wellFormed_eq_true
  rw [commandOf, if_pos hwf]
  cases i <;> simp [Instr.source]

theorem literalInRange_iff (v : Int) : literalInRange v = true ↔ 0 ≤ v ∧ v < 2 ^ 128 := by
  simp [literalInRange]

theorem wellFormed_iff_operands (c : SourceCommand) :
    c.wellFormed = true ↔ c.operands.length = c.mnemonic.arity ∧ ∀ v ∈ c.operands, 0 ≤ v ∧ v < 2 ^ 128 := by
  simp [SourceCommand.wellFormed, literalInRange_iff]

/-- Literals in range are 128-bit values. -/
theorem exists_map_toNat_eq {vs : List Int} (h : ∀ v ∈ vs, 0 ≤ v ∧ v < 2 ^ 128) :
    ∃ as : List U128, vs = as.map fun a => (a.toNat : Int) := by
  refine ⟨vs.map (BitVec.ofInt 128), ?_⟩
  have hback : ∀ v ∈ vs, ((BitVec.ofInt 128 v).toNat : Int) = v := by
    intro v hv
    have := h v hv
    rw [BitVec.toNat_ofInt]
    omega
  rw [List.map_map]
  exact ((List.map_congr_left hback).trans (List.map_id' vs)).symm

/-- As many operands as the mnemonic takes make a listing. -/
theorem exists_source_of_length : ∀ (m : Mnemonic) (as : List U128), as.length = m.arity →
    ∃ i : Instr, ⟨m, as.map fun a => (a.toNat : Int)⟩ = i.source
  | .adv, [], _ => ⟨.adv, rfl⟩
  | .perm, [a], _ => ⟨.perm a, rfl⟩
  | .next, [], _ => ⟨.next, rfl⟩
  | .seed, [a], _ => ⟨.seed a, rfl⟩
  | .seeds, [a, b], _ => ⟨.seeds a b, rfl⟩
  | .load, [a, b], _ => ⟨.load a b, rfl⟩
  | .save, [], _ => ⟨.save, rfl⟩

/-- The written commands that pass the checks are the listings. -/
theorem exists_source_of_wellFormed {c : SourceCommand} (h : c.wellFormed = true) : ∃ i : Instr, c = i.source := by
  obtain ⟨m, vs⟩ := c
  obtain ⟨hlength, hrange⟩ := (wellFormed_iff_operands _).mp h
  obtain ⟨as, rfl⟩ := exists_map_toNat_eq hrange
  rw [List.length_map] at hlength
  exact exists_source_of_length m as hlength

theorem commandOf_of_not_wellFormed {c : SourceCommand} (h : ¬c.wellFormed = true) : commandOf c = none := by
  rw [commandOf, if_neg h]

theorem commandOf_eq_some_iff (c : SourceCommand) (i : Instr) : commandOf c = some i ↔ c = i.source := by
  constructor
  · intro h
    by_cases hwf : c.wellFormed = true
    · obtain ⟨j, rfl⟩ := exists_source_of_wellFormed hwf
      rw [commandOf_source, Option.some.injEq] at h
      rw [h]
    · simp [commandOf_of_not_wellFormed hwf] at h
  · rintro rfl
    exact commandOf_source i

theorem commandOf_eq_none_iff (c : SourceCommand) : commandOf c = none ↔ ¬c.wellFormed = true := by
  refine ⟨fun h hwf => ?_, commandOf_of_not_wellFormed⟩
  obtain ⟨i, rfl⟩ := exists_source_of_wellFormed hwf
  simp [commandOf_source] at h

/-- A sign is no digit, so no literal begins with one. -/
theorem literal_of_sign {c : Char} (h : c = '-' ∨ c = '+') (cs : List Char) : literal (c :: cs) = none := by
  rcases h with rfl | rfl <;> rfl

theorem literal_nonneg {cs : List Char} {v : Int} (h : literal cs = some v) : 0 ≤ v := by
  obtain ⟨n, _, rfl⟩ := Option.map_eq_some_iff.mp h
  exact Int.natCast_nonneg n

/-- Settles O44: the checks pass for the listings and for nothing else, and each listing assembles to its command. -/
theorem assemblerTakesExactlyLegalCommands : Obligations.AssemblerTakesExactlyLegalCommands := by
  refine ⟨commandOf_source, commandOf_eq_some_iff, fun c => ?illegal, fun _ cs h => literal_of_sign h cs,
    fun _ _ => literal_nonneg⟩
  case illegal =>
    rw [commandOf_eq_none_iff, wellFormed_iff_operands]
    simp only [not_and_or, not_forall, not_le, not_lt, exists_prop, ne_eq]

end Sys2Proof.Machine
end

section
/-! PROOF. The text of a word reads back as the word (30_encoding.md rules R30, R31). -/

namespace Sys2Proof.Machine

/-- The digits of `hexDigits` as numbers. -/
def hexNumbers : Nat → Nat → List Nat
  | 0, _ => []
  | n + 1, v => hexNumbers n (v / 16) ++ [v % 16]

theorem hexDigits_eq_map (n v : Nat) : hexDigits n v = (hexNumbers n v).map hexChar := by
  induction n generalizing v with
  | zero => rfl
  | succ n ih => rw [hexDigits, hexNumbers, ih, List.map_append, List.map_singleton]

theorem hexNumbers_length (n v : Nat) : (hexNumbers n v).length = n := by
  induction n generalizing v with
  | zero => rfl
  | succ n ih => rw [hexNumbers, List.length_append, ih, List.length_singleton]

theorem hexNumbers_lt {n v d : Nat} (h : d ∈ hexNumbers n v) : d < 16 := by
  induction n generalizing v with
  | zero => cases h
  | succ n ih =>
    rcases List.mem_append.mp h with hd | hd
    · exact ih hd
    · rw [List.mem_singleton.mp hd]
      exact Nat.mod_lt _ (by decide)

/-- Digits of a number give back as much of it as they cover. -/
theorem ofHexValues_hexNumbers (n v : Nat) : ofHexValues (hexNumbers n v) = v % 16 ^ n := by
  induction n generalizing v with
  | zero => rw [pow_zero, Nat.mod_one]; rfl
  | succ n ih =>
    calc ofHexValues (hexNumbers n (v / 16) ++ [v % 16])
        = ofHexValues (hexNumbers n (v / 16)) * 16 + v % 16 := List.foldl_concat ..
      _ = v / 16 % 16 ^ n * 16 + v % 16 := by rw [ih]
      _ = v % 16 ^ (n + 1) := by rw [pow_succ', Nat.mod_mul, Nat.mul_comm, Nat.add_comm]

/-- Each of the sixteen digits reads back, and none is white space. -/
theorem hexChar_reads_back : ∀ d < 16, isSpace (hexChar d) = false ∧ hexDigit (hexChar d) = some d := by decide

theorem hexValues_map_hexChar {ds : List Nat} (h : ∀ d ∈ ds, d < 16) : hexValues (ds.map hexChar) = some ds := by
  induction ds with
  | nil => rfl
  | cons d ds ih =>
    rw [List.forall_mem_cons] at h
    obtain ⟨hd, hds⟩ := h
    obtain ⟨hspace, hdigit⟩ := hexChar_reads_back d hd
    simp [hexValues, hspace, hdigit, ih hds]

/-- A hexadecimal digit covers four bits. -/
theorem toNat_lt_sixteen_pow {n : Nat} (w : BitVec (4 * n)) : w.toNat < 16 ^ n :=
  lt_of_lt_of_eq w.isLt (pow_mul 2 4 n)

/-- Settles O45: the digits read back one by one, and together they are the word's number. -/
theorem wordTextReadsBack : Obligations.WordTextReadsBack := by
  intro w
  have htext : wordText w = (hexNumbers 66 w.toNat).map hexChar := hexDigits_eq_map 66 w.toNat
  have hvalues : hexValues (wordText w) = some (hexNumbers 66 w.toNat) := by
    rw [htext, hexValues_map_hexChar fun _ => hexNumbers_lt]
  constructor
  · rw [htext, List.length_map, hexNumbers_length]
  · simp only [wordOfText, hvalues]
    rw [if_pos (hexNumbers_length 66 w.toNat), ofHexValues_hexNumbers,
      Nat.mod_eq_of_lt (toNat_lt_sixteen_pow (n := 66) w), BitVec.ofNat_toNat, BitVec.setWidth_eq]

end Sys2Proof.Machine
end

section
/-! PROOF. The constants and some words by evaluation; and what a step is, event by event (10_state.md rules R13, R19;
70_reset_and_hazards.md rules R70, R72). -/

namespace Sys2Proof.Machine

/-- Settles O1: by evaluation. -/
theorem constantsAreTheSourceLiterals : Obligations.ConstantsAreTheSourceLiterals :=
  ⟨rfl, rfl, rfl, rfl, rfl, rfl⟩

/-- Settles O7: the fields of each word by evaluation. -/
theorem sampleWordsDecode : Obligations.SampleWordsDecode := by
  simp [Obligations.SampleWordsDecode, decode, CommandWord.opc, CommandWord.a, CommandWord.b]

/-- Settles O8: the step takes the event and decodes its word. -/
theorem stepRunsTheDecodedCommand : Obligations.StepRunsTheDecodedCommand := by
  intro s cw rest i hp hd
  simp [step, State.takeEvent_of_cons hp, hd]

/-- Settles O9: there is no event to take. -/
theorem idleStepChangesNothing : Obligations.IdleStepChangesNothing := fun _ => step_of_nothing_pending

/-- Settles O11: power-up by definition, a reset of either kind by its step. -/
theorem resetDrawsAFreshPair : Obligations.ResetDrawsAFreshPair :=
  ⟨rfl, rfl, rfl, fun _ _ cw _ hev =>
    (step_of_either_reset rfl (hev.imp_right fun h => ⟨cw, h⟩)).trans rfl⟩

end Sys2Proof.Machine
end
